-- ==== Sys2Proof/Word.lean ====
section
/-! DEFINITION. The two word types of the machine (spec R5, R6): an 8-bit data byte and a 16-bit address or register. -/

namespace Sys2Proof

/-- An 8-bit value, the spec's `u8` (R6). -/
abbrev Byte := BitVec 8

/-- A 16-bit value, the spec's `u16`: an address, X, SP or PC (R5, R6). -/
abbrev Word := BitVec 16

end Sys2Proof
end

