-- ==== Sys2Proof/Syntax.lean ====
section
/-! DEFINITION. The syntax of the machine: the operand forms, and `Instr` with one constructor for every instruction and
every illegal byte of spec/opcode_table.json. A mnemonic that has several rows (one per addressing mode) is one constructor
whose argument is the operand form, so a row of the table is a constructor applied to a form (log entry 23). -/

namespace Sys2Proof

/-- The two accumulators (R10). -/
inductive Acc where
  | a
  | b
deriving DecidableEq, Repr

/-- The addressing modes of the 6800 (R60, R63 to R68). -/
inductive AddrMode where
  | inherent
  | relative
  | byteImmediate
  | wordImmediate
  | direct
  | indexed
  | extended
deriving DecidableEq, Repr

/-- The branch conditions of R141. -/
inductive Cond where
  | always
  | hi
  | ls
  | cc
  | cs
  | ne
  | eq
  | vc
  | vs
  | pl
  | mi
  | ge
  | lt
  | gt
  | le
deriving DecidableEq, Repr

/-- A memory operand: direct, indexed or extended (R65 to R67). -/
inductive Mem where
  | dir (addr : Byte)
  | idx (off : Byte)
  | ext (addr : Word)
deriving DecidableEq, Repr

/-- The source of an 8-bit operand (R69): an immediate byte or a memory operand. -/
inductive Src8 where
  | imm (value : Byte)
  | mem (m : Mem)
deriving DecidableEq, Repr

/-- The source of a 16-bit operand (R69): an immediate word or a memory operand. -/
inductive Src16 where
  | imm (value : Word)
  | mem (m : Mem)
deriving DecidableEq, Repr

/-- The memory operand of the one-operand group, JMP and JSR, which have no direct form (R70). -/
inductive IdxExt where
  | idx (off : Byte)
  | ext (addr : Word)
deriving DecidableEq, Repr

/-- The same operand as a general memory operand. -/
def IdxExt.toMem : IdxExt → Mem
  | .idx off => .idx off
  | .ext addr => .ext addr

/-- The operand of the one-operand group, rows 4x to 7x of R71: an accumulator, or a memory operand. -/
inductive Place where
  | acc (r : Acc)
  | mem (m : IdxExt)
deriving DecidableEq, Repr

/-- The instructions, in the order of spec/opcode_table.json (R71). The 59 bytes of R72 are rows of the table and
constructors here too; `Instr.WellFormed` tells them from the instructions. -/
inductive Instr where
  | illegal00
  | nop
  | illegal02
  | illegal03
  | illegal04
  | illegal05
  | tap
  | tpa
  | inx
  | dex
  | clv
  | sev
  | clc
  | sec
  | cli
  | sei
  | sba
  | cba
  | illegal12
  | illegal13
  | illegal14
  | illegal15
  | tab
  | tba
  | illegal18
  | daa
  | illegal1A
  | aba
  | illegal1C
  | illegal1D
  | illegal1E
  | illegal1F
  | bra (rel : Byte)
  | illegal21
  | bhi (rel : Byte)
  | bls (rel : Byte)
  | bcc (rel : Byte)
  | bcs (rel : Byte)
  | bne (rel : Byte)
  | beq (rel : Byte)
  | bvc (rel : Byte)
  | bvs (rel : Byte)
  | bpl (rel : Byte)
  | bmi (rel : Byte)
  | bge (rel : Byte)
  | blt (rel : Byte)
  | bgt (rel : Byte)
  | ble (rel : Byte)
  | tsx
  | ins
  | pula
  | pulb
  | des
  | txs
  | psha
  | pshb
  | illegal38
  | rts
  | illegal3A
  | rti
  | illegal3C
  | illegal3D
  | wai
  | swi
  | nega
  | illegal41
  | illegal42
  | coma
  | lsra
  | illegal45
  | rora
  | asra
  | asla
  | rola
  | deca
  | illegal4B
  | inca
  | tsta
  | illegal4E
  | clra
  | negb
  | illegal51
  | illegal52
  | comb
  | lsrb
  | illegal55
  | rorb
  | asrb
  | aslb
  | rolb
  | decb
  | illegal5B
  | incb
  | tstb
  | illegal5E
  | clrb
  | neg (ea : IdxExt)
  | illegal61
  | illegal62
  | com (ea : IdxExt)
  | lsr (ea : IdxExt)
  | illegal65
  | ror (ea : IdxExt)
  | asr (ea : IdxExt)
  | asl (ea : IdxExt)
  | rol (ea : IdxExt)
  | dec (ea : IdxExt)
  | illegal6B
  | inc (ea : IdxExt)
  | tst (ea : IdxExt)
  | jmp (ea : IdxExt)
  | clr (ea : IdxExt)
  | illegal71
  | illegal72
  | illegal75
  | illegal7B
  | suba (src : Src8)
  | cmpa (src : Src8)
  | sbca (src : Src8)
  | illegal83
  | anda (src : Src8)
  | bita (src : Src8)
  | ldaa (src : Src8)
  | illegal87
  | eora (src : Src8)
  | adca (src : Src8)
  | oraa (src : Src8)
  | adda (src : Src8)
  | cpx (src : Src16)
  | bsr (rel : Byte)
  | lds (src : Src16)
  | illegal8F
  | illegal93
  | staa (dst : Mem)
  | illegal9D
  | sts (dst : Mem)
  | illegalA3
  | jsr (ea : IdxExt)
  | illegalB3
  | subb (src : Src8)
  | cmpb (src : Src8)
  | sbcb (src : Src8)
  | illegalC3
  | andb (src : Src8)
  | bitb (src : Src8)
  | ldab (src : Src8)
  | illegalC7
  | eorb (src : Src8)
  | adcb (src : Src8)
  | orab (src : Src8)
  | addb (src : Src8)
  | illegalCC
  | illegalCD
  | ldx (src : Src16)
  | illegalCF
  | illegalD3
  | stab (dst : Mem)
  | illegalDC
  | illegalDD
  | stx (dst : Mem)
  | illegalE3
  | illegalEC
  | illegalED
  | illegalF3
  | illegalFC
  | illegalFD
deriving DecidableEq, Repr

/-! The A and B forms of one operation as one function of the accumulator or of the place. Statements about an operation
in all its forms quantify over the arguments of these. -/

/-- ADDA and ADDB, in their eight forms (R103). -/
def Instr.addOf : Acc → Src8 → Instr
  | .a => .adda
  | .b => .addb

/-- ADCA and ADCB, in their eight forms (R104). -/
def Instr.adcOf : Acc → Src8 → Instr
  | .a => .adca
  | .b => .adcb

/-- SUBA and SUBB, in their eight forms (R106). -/
def Instr.subOf : Acc → Src8 → Instr
  | .a => .suba
  | .b => .subb

/-- SBCA and SBCB, in their eight forms (R107). -/
def Instr.sbcOf : Acc → Src8 → Instr
  | .a => .sbca
  | .b => .sbcb

/-- CMPA and CMPB, in their eight forms (R109). -/
def Instr.cmpOf : Acc → Src8 → Instr
  | .a => .cmpa
  | .b => .cmpb

/-- ANDA and ANDB, in their eight forms (R190). -/
def Instr.andOf : Acc → Src8 → Instr
  | .a => .anda
  | .b => .andb

/-- ORAA and ORAB, in their eight forms (R191). -/
def Instr.oraOf : Acc → Src8 → Instr
  | .a => .oraa
  | .b => .orab

/-- EORA and EORB, in their eight forms (R192). -/
def Instr.eorOf : Acc → Src8 → Instr
  | .a => .eora
  | .b => .eorb

/-- BITA and BITB, in their eight forms (R193). -/
def Instr.bitOf : Acc → Src8 → Instr
  | .a => .bita
  | .b => .bitb

/-- LDAA and LDAB, in their eight forms (R170). -/
def Instr.ldaOf : Acc → Src8 → Instr
  | .a => .ldaa
  | .b => .ldab

/-- STAA and STAB, in their six forms (R171). -/
def Instr.staOf : Acc → Mem → Instr
  | .a => .staa
  | .b => .stab

/-- NEGA, NEGB and NEG of memory, in its two forms (R111). -/
def Instr.negOf : Place → Instr
  | .acc .a => .nega
  | .acc .b => .negb
  | .mem m => .neg m

/-- COMA, COMB and COM of memory, in its two forms (R194). -/
def Instr.comOf : Place → Instr
  | .acc .a => .coma
  | .acc .b => .comb
  | .mem m => .com m

/-- LSRA, LSRB and LSR of memory, in its two forms (R133). -/
def Instr.lsrOf : Place → Instr
  | .acc .a => .lsra
  | .acc .b => .lsrb
  | .mem m => .lsr m

/-- RORA, RORB and ROR of memory, in its two forms (R135). -/
def Instr.rorOf : Place → Instr
  | .acc .a => .rora
  | .acc .b => .rorb
  | .mem m => .ror m

/-- ASRA, ASRB and ASR of memory, in its two forms (R132). -/
def Instr.asrOf : Place → Instr
  | .acc .a => .asra
  | .acc .b => .asrb
  | .mem m => .asr m

/-- ASLA, ASLB and ASL of memory, in its two forms (R131). -/
def Instr.aslOf : Place → Instr
  | .acc .a => .asla
  | .acc .b => .aslb
  | .mem m => .asl m

/-- ROLA, ROLB and ROL of memory, in its two forms (R134). -/
def Instr.rolOf : Place → Instr
  | .acc .a => .rola
  | .acc .b => .rolb
  | .mem m => .rol m

/-- DECA, DECB and DEC of memory, in its two forms (R113). -/
def Instr.decOf : Place → Instr
  | .acc .a => .deca
  | .acc .b => .decb
  | .mem m => .dec m

/-- INCA, INCB and INC of memory, in its two forms (R112). -/
def Instr.incOf : Place → Instr
  | .acc .a => .inca
  | .acc .b => .incb
  | .mem m => .inc m

/-- TSTA, TSTB and TST of memory, in its two forms (R195). -/
def Instr.tstOf : Place → Instr
  | .acc .a => .tsta
  | .acc .b => .tstb
  | .mem m => .tst m

/-- CLRA, CLRB and CLR of memory, in its two forms (R196). -/
def Instr.clrOf : Place → Instr
  | .acc .a => .clra
  | .acc .b => .clrb
  | .mem m => .clr m

/-- The fifteen relative branches (R141). -/
def Instr.branchOf : Cond → Byte → Instr
  | .always => .bra
  | .hi => .bhi
  | .ls => .bls
  | .cc => .bcc
  | .cs => .bcs
  | .ne => .bne
  | .eq => .beq
  | .vc => .bvc
  | .vs => .bvs
  | .pl => .bpl
  | .mi => .bmi
  | .ge => .bge
  | .lt => .blt
  | .gt => .bgt
  | .le => .ble

/-- PSHA and PSHB (R180). -/
def Instr.pshOf : Acc → Instr
  | .a => .psha
  | .b => .pshb

/-- PULA and PULB (R181). -/
def Instr.pulOf : Acc → Instr
  | .a => .pula
  | .b => .pulb

/-! The illegal bytes of R72, each with its row of the table, in six pieces. -/

def Instr.illegalRows0 : List (Byte × Instr) :=
  [(0x00, .illegal00), (0x02, .illegal02), (0x03, .illegal03), (0x04, .illegal04), (0x05, .illegal05),
   (0x12, .illegal12), (0x13, .illegal13), (0x14, .illegal14), (0x15, .illegal15), (0x18, .illegal18)]

def Instr.illegalRows1 : List (Byte × Instr) :=
  [(0x1A, .illegal1A), (0x1C, .illegal1C), (0x1D, .illegal1D), (0x1E, .illegal1E), (0x1F, .illegal1F),
   (0x21, .illegal21), (0x38, .illegal38), (0x3A, .illegal3A), (0x3C, .illegal3C), (0x3D, .illegal3D)]

def Instr.illegalRows2 : List (Byte × Instr) :=
  [(0x41, .illegal41), (0x42, .illegal42), (0x45, .illegal45), (0x4B, .illegal4B), (0x4E, .illegal4E),
   (0x51, .illegal51), (0x52, .illegal52), (0x55, .illegal55), (0x5B, .illegal5B), (0x5E, .illegal5E)]

def Instr.illegalRows3 : List (Byte × Instr) :=
  [(0x61, .illegal61), (0x62, .illegal62), (0x65, .illegal65), (0x6B, .illegal6B), (0x71, .illegal71),
   (0x72, .illegal72), (0x75, .illegal75), (0x7B, .illegal7B), (0x83, .illegal83), (0x87, .illegal87)]

def Instr.illegalRows4 : List (Byte × Instr) :=
  [(0x8F, .illegal8F), (0x93, .illegal93), (0x9D, .illegal9D), (0xA3, .illegalA3), (0xB3, .illegalB3),
   (0xC3, .illegalC3), (0xC7, .illegalC7), (0xCC, .illegalCC), (0xCD, .illegalCD), (0xCF, .illegalCF)]

def Instr.illegalRows5 : List (Byte × Instr) :=
  [(0xD3, .illegalD3), (0xDC, .illegalDC), (0xDD, .illegalDD), (0xE3, .illegalE3), (0xEC, .illegalEC),
   (0xED, .illegalED), (0xF3, .illegalF3), (0xFC, .illegalFC), (0xFD, .illegalFD)]

/-- The 59 illegal bytes of R72. -/
def Instr.illegalRows : List (Byte × Instr) :=
  Instr.illegalRows0 ++ Instr.illegalRows1 ++ Instr.illegalRows2 ++
  Instr.illegalRows3 ++ Instr.illegalRows4 ++ Instr.illegalRows5

end Sys2Proof
end

