-- ==== Sys2Proof/WellFormed.lean ====
section
/-! DEFINITION. Which instructions are well-formed: the documented instructions of the 6800 and 6802 (R2, R71), and none of
the 59 bytes of R72. An operand needs no check of its own: each operand form has exactly the width of its operand bytes, and
each constructor takes exactly the forms its mnemonic has rows for (R60, R69, R71), so every value of it is encodable. -/

namespace Sys2Proof

/-- The validity of a row (R61, R72): true for an instruction, false for an illegal byte. -/
def Instr.valid : Instr → Bool
  | .illegal00 => false
  | .nop => true
  | .illegal02 => false
  | .illegal03 => false
  | .illegal04 => false
  | .illegal05 => false
  | .tap => true
  | .tpa => true
  | .inx => true
  | .dex => true
  | .clv => true
  | .sev => true
  | .clc => true
  | .sec => true
  | .cli => true
  | .sei => true
  | .sba => true
  | .cba => true
  | .illegal12 => false
  | .illegal13 => false
  | .illegal14 => false
  | .illegal15 => false
  | .tab => true
  | .tba => true
  | .illegal18 => false
  | .daa => true
  | .illegal1A => false
  | .aba => true
  | .illegal1C => false
  | .illegal1D => false
  | .illegal1E => false
  | .illegal1F => false
  | .bra _ => true
  | .illegal21 => false
  | .bhi _ => true
  | .bls _ => true
  | .bcc _ => true
  | .bcs _ => true
  | .bne _ => true
  | .beq _ => true
  | .bvc _ => true
  | .bvs _ => true
  | .bpl _ => true
  | .bmi _ => true
  | .bge _ => true
  | .blt _ => true
  | .bgt _ => true
  | .ble _ => true
  | .tsx => true
  | .ins => true
  | .pula => true
  | .pulb => true
  | .des => true
  | .txs => true
  | .psha => true
  | .pshb => true
  | .illegal38 => false
  | .rts => true
  | .illegal3A => false
  | .rti => true
  | .illegal3C => false
  | .illegal3D => false
  | .wai => true
  | .swi => true
  | .nega => true
  | .illegal41 => false
  | .illegal42 => false
  | .coma => true
  | .lsra => true
  | .illegal45 => false
  | .rora => true
  | .asra => true
  | .asla => true
  | .rola => true
  | .deca => true
  | .illegal4B => false
  | .inca => true
  | .tsta => true
  | .illegal4E => false
  | .clra => true
  | .negb => true
  | .illegal51 => false
  | .illegal52 => false
  | .comb => true
  | .lsrb => true
  | .illegal55 => false
  | .rorb => true
  | .asrb => true
  | .aslb => true
  | .rolb => true
  | .decb => true
  | .illegal5B => false
  | .incb => true
  | .tstb => true
  | .illegal5E => false
  | .clrb => true
  | .neg _ => true
  | .illegal61 => false
  | .illegal62 => false
  | .com _ => true
  | .lsr _ => true
  | .illegal65 => false
  | .ror _ => true
  | .asr _ => true
  | .asl _ => true
  | .rol _ => true
  | .dec _ => true
  | .illegal6B => false
  | .inc _ => true
  | .tst _ => true
  | .jmp _ => true
  | .clr _ => true
  | .illegal71 => false
  | .illegal72 => false
  | .illegal75 => false
  | .illegal7B => false
  | .suba _ => true
  | .cmpa _ => true
  | .sbca _ => true
  | .illegal83 => false
  | .anda _ => true
  | .bita _ => true
  | .ldaa _ => true
  | .illegal87 => false
  | .eora _ => true
  | .adca _ => true
  | .oraa _ => true
  | .adda _ => true
  | .cpx _ => true
  | .bsr _ => true
  | .lds _ => true
  | .illegal8F => false
  | .illegal93 => false
  | .staa _ => true
  | .illegal9D => false
  | .sts _ => true
  | .illegalA3 => false
  | .jsr _ => true
  | .illegalB3 => false
  | .subb _ => true
  | .cmpb _ => true
  | .sbcb _ => true
  | .illegalC3 => false
  | .andb _ => true
  | .bitb _ => true
  | .ldab _ => true
  | .illegalC7 => false
  | .eorb _ => true
  | .adcb _ => true
  | .orab _ => true
  | .addb _ => true
  | .illegalCC => false
  | .illegalCD => false
  | .ldx _ => true
  | .illegalCF => false
  | .illegalD3 => false
  | .stab _ => true
  | .illegalDC => false
  | .illegalDD => false
  | .stx _ => true
  | .illegalE3 => false
  | .illegalEC => false
  | .illegalED => false
  | .illegalF3 => false
  | .illegalFC => false
  | .illegalFD => false

/-- An instruction of the 6800 and 6802 (R2). -/
abbrev Instr.WellFormed (i : Instr) : Prop := i.valid = true

end Sys2Proof
end

