-- ==== Sys2Proof/Decode.lean ====
section
/-! DEFINITION. Decoding and encoding (R60 to R76). The decoder reads the opcode map of R71 row by row; the encoder is
written from the same map. The byte-order helpers both use stand here too. -/

namespace Sys2Proof

/-- The more significant byte of a word (R44). -/
def byteHi (w : Word) : Byte := w.extractLsb' 8 8

/-- The less significant byte of a word (R44). -/
def byteLo (w : Word) : Byte := w.extractLsb' 0 8

/-- The word `{hi, lo}`, more significant byte first (R6, R44). -/
def joinBytes (hi lo : Byte) : Word := hi ++ lo

/-- Why a byte sequence is not an instruction: it is empty, or it ends before the opcode's operand bytes do (R60). No
opcode byte is rejected: the map is total (R61). -/
inductive DecodeError where
  | noBytes
  | missingOperand (opcode : Byte)
deriving DecidableEq, Repr

/-- What the decoder answers. -/
inductive Decoded where
  | instr (i : Instr) (rest : List Byte)
  | error (e : DecodeError)
deriving DecidableEq, Repr

/-! The opcode map of R71, one list per row of sixteen: the instruction the opcode selects, given its two operand bytes. A
one-byte operand is the first of the two, a two-byte operand is big-endian (R60). -/

def opcodeRow0 : List (Byte → Byte → Instr) :=
  [fun _ _ => .illegal00,
   fun _ _ => .nop,
   fun _ _ => .illegal02,
   fun _ _ => .illegal03,
   fun _ _ => .illegal04,
   fun _ _ => .illegal05,
   fun _ _ => .tap,
   fun _ _ => .tpa,
   fun _ _ => .inx,
   fun _ _ => .dex,
   fun _ _ => .clv,
   fun _ _ => .sev,
   fun _ _ => .clc,
   fun _ _ => .sec,
   fun _ _ => .cli,
   fun _ _ => .sei]

def opcodeRow1 : List (Byte → Byte → Instr) :=
  [fun _ _ => .sba,
   fun _ _ => .cba,
   fun _ _ => .illegal12,
   fun _ _ => .illegal13,
   fun _ _ => .illegal14,
   fun _ _ => .illegal15,
   fun _ _ => .tab,
   fun _ _ => .tba,
   fun _ _ => .illegal18,
   fun _ _ => .daa,
   fun _ _ => .illegal1A,
   fun _ _ => .aba,
   fun _ _ => .illegal1C,
   fun _ _ => .illegal1D,
   fun _ _ => .illegal1E,
   fun _ _ => .illegal1F]

def opcodeRow2 : List (Byte → Byte → Instr) :=
  [fun b1 _ => .bra b1,
   fun _ _ => .illegal21,
   fun b1 _ => .bhi b1,
   fun b1 _ => .bls b1,
   fun b1 _ => .bcc b1,
   fun b1 _ => .bcs b1,
   fun b1 _ => .bne b1,
   fun b1 _ => .beq b1,
   fun b1 _ => .bvc b1,
   fun b1 _ => .bvs b1,
   fun b1 _ => .bpl b1,
   fun b1 _ => .bmi b1,
   fun b1 _ => .bge b1,
   fun b1 _ => .blt b1,
   fun b1 _ => .bgt b1,
   fun b1 _ => .ble b1]

def opcodeRow3 : List (Byte → Byte → Instr) :=
  [fun _ _ => .tsx,
   fun _ _ => .ins,
   fun _ _ => .pula,
   fun _ _ => .pulb,
   fun _ _ => .des,
   fun _ _ => .txs,
   fun _ _ => .psha,
   fun _ _ => .pshb,
   fun _ _ => .illegal38,
   fun _ _ => .rts,
   fun _ _ => .illegal3A,
   fun _ _ => .rti,
   fun _ _ => .illegal3C,
   fun _ _ => .illegal3D,
   fun _ _ => .wai,
   fun _ _ => .swi]

def opcodeRow4 : List (Byte → Byte → Instr) :=
  [fun _ _ => .nega,
   fun _ _ => .illegal41,
   fun _ _ => .illegal42,
   fun _ _ => .coma,
   fun _ _ => .lsra,
   fun _ _ => .illegal45,
   fun _ _ => .rora,
   fun _ _ => .asra,
   fun _ _ => .asla,
   fun _ _ => .rola,
   fun _ _ => .deca,
   fun _ _ => .illegal4B,
   fun _ _ => .inca,
   fun _ _ => .tsta,
   fun _ _ => .illegal4E,
   fun _ _ => .clra]

def opcodeRow5 : List (Byte → Byte → Instr) :=
  [fun _ _ => .negb,
   fun _ _ => .illegal51,
   fun _ _ => .illegal52,
   fun _ _ => .comb,
   fun _ _ => .lsrb,
   fun _ _ => .illegal55,
   fun _ _ => .rorb,
   fun _ _ => .asrb,
   fun _ _ => .aslb,
   fun _ _ => .rolb,
   fun _ _ => .decb,
   fun _ _ => .illegal5B,
   fun _ _ => .incb,
   fun _ _ => .tstb,
   fun _ _ => .illegal5E,
   fun _ _ => .clrb]

def opcodeRow6 : List (Byte → Byte → Instr) :=
  [fun b1 _ => .neg (.idx b1),
   fun _ _ => .illegal61,
   fun _ _ => .illegal62,
   fun b1 _ => .com (.idx b1),
   fun b1 _ => .lsr (.idx b1),
   fun _ _ => .illegal65,
   fun b1 _ => .ror (.idx b1),
   fun b1 _ => .asr (.idx b1),
   fun b1 _ => .asl (.idx b1),
   fun b1 _ => .rol (.idx b1),
   fun b1 _ => .dec (.idx b1),
   fun _ _ => .illegal6B,
   fun b1 _ => .inc (.idx b1),
   fun b1 _ => .tst (.idx b1),
   fun b1 _ => .jmp (.idx b1),
   fun b1 _ => .clr (.idx b1)]

def opcodeRow7 : List (Byte → Byte → Instr) :=
  [fun b1 b2 => .neg (.ext (joinBytes b1 b2)),
   fun _ _ => .illegal71,
   fun _ _ => .illegal72,
   fun b1 b2 => .com (.ext (joinBytes b1 b2)),
   fun b1 b2 => .lsr (.ext (joinBytes b1 b2)),
   fun _ _ => .illegal75,
   fun b1 b2 => .ror (.ext (joinBytes b1 b2)),
   fun b1 b2 => .asr (.ext (joinBytes b1 b2)),
   fun b1 b2 => .asl (.ext (joinBytes b1 b2)),
   fun b1 b2 => .rol (.ext (joinBytes b1 b2)),
   fun b1 b2 => .dec (.ext (joinBytes b1 b2)),
   fun _ _ => .illegal7B,
   fun b1 b2 => .inc (.ext (joinBytes b1 b2)),
   fun b1 b2 => .tst (.ext (joinBytes b1 b2)),
   fun b1 b2 => .jmp (.ext (joinBytes b1 b2)),
   fun b1 b2 => .clr (.ext (joinBytes b1 b2))]

def opcodeRow8 : List (Byte → Byte → Instr) :=
  [fun b1 _ => .suba (.imm b1),
   fun b1 _ => .cmpa (.imm b1),
   fun b1 _ => .sbca (.imm b1),
   fun _ _ => .illegal83,
   fun b1 _ => .anda (.imm b1),
   fun b1 _ => .bita (.imm b1),
   fun b1 _ => .ldaa (.imm b1),
   fun _ _ => .illegal87,
   fun b1 _ => .eora (.imm b1),
   fun b1 _ => .adca (.imm b1),
   fun b1 _ => .oraa (.imm b1),
   fun b1 _ => .adda (.imm b1),
   fun b1 b2 => .cpx (.imm (joinBytes b1 b2)),
   fun b1 _ => .bsr b1,
   fun b1 b2 => .lds (.imm (joinBytes b1 b2)),
   fun _ _ => .illegal8F]

def opcodeRow9 : List (Byte → Byte → Instr) :=
  [fun b1 _ => .suba (.mem (.dir b1)),
   fun b1 _ => .cmpa (.mem (.dir b1)),
   fun b1 _ => .sbca (.mem (.dir b1)),
   fun _ _ => .illegal93,
   fun b1 _ => .anda (.mem (.dir b1)),
   fun b1 _ => .bita (.mem (.dir b1)),
   fun b1 _ => .ldaa (.mem (.dir b1)),
   fun b1 _ => .staa (.dir b1),
   fun b1 _ => .eora (.mem (.dir b1)),
   fun b1 _ => .adca (.mem (.dir b1)),
   fun b1 _ => .oraa (.mem (.dir b1)),
   fun b1 _ => .adda (.mem (.dir b1)),
   fun b1 _ => .cpx (.mem (.dir b1)),
   fun _ _ => .illegal9D,
   fun b1 _ => .lds (.mem (.dir b1)),
   fun b1 _ => .sts (.dir b1)]

def opcodeRowA : List (Byte → Byte → Instr) :=
  [fun b1 _ => .suba (.mem (.idx b1)),
   fun b1 _ => .cmpa (.mem (.idx b1)),
   fun b1 _ => .sbca (.mem (.idx b1)),
   fun _ _ => .illegalA3,
   fun b1 _ => .anda (.mem (.idx b1)),
   fun b1 _ => .bita (.mem (.idx b1)),
   fun b1 _ => .ldaa (.mem (.idx b1)),
   fun b1 _ => .staa (.idx b1),
   fun b1 _ => .eora (.mem (.idx b1)),
   fun b1 _ => .adca (.mem (.idx b1)),
   fun b1 _ => .oraa (.mem (.idx b1)),
   fun b1 _ => .adda (.mem (.idx b1)),
   fun b1 _ => .cpx (.mem (.idx b1)),
   fun b1 _ => .jsr (.idx b1),
   fun b1 _ => .lds (.mem (.idx b1)),
   fun b1 _ => .sts (.idx b1)]

def opcodeRowB : List (Byte → Byte → Instr) :=
  [fun b1 b2 => .suba (.mem (.ext (joinBytes b1 b2))),
   fun b1 b2 => .cmpa (.mem (.ext (joinBytes b1 b2))),
   fun b1 b2 => .sbca (.mem (.ext (joinBytes b1 b2))),
   fun _ _ => .illegalB3,
   fun b1 b2 => .anda (.mem (.ext (joinBytes b1 b2))),
   fun b1 b2 => .bita (.mem (.ext (joinBytes b1 b2))),
   fun b1 b2 => .ldaa (.mem (.ext (joinBytes b1 b2))),
   fun b1 b2 => .staa (.ext (joinBytes b1 b2)),
   fun b1 b2 => .eora (.mem (.ext (joinBytes b1 b2))),
   fun b1 b2 => .adca (.mem (.ext (joinBytes b1 b2))),
   fun b1 b2 => .oraa (.mem (.ext (joinBytes b1 b2))),
   fun b1 b2 => .adda (.mem (.ext (joinBytes b1 b2))),
   fun b1 b2 => .cpx (.mem (.ext (joinBytes b1 b2))),
   fun b1 b2 => .jsr (.ext (joinBytes b1 b2)),
   fun b1 b2 => .lds (.mem (.ext (joinBytes b1 b2))),
   fun b1 b2 => .sts (.ext (joinBytes b1 b2))]

def opcodeRowC : List (Byte → Byte → Instr) :=
  [fun b1 _ => .subb (.imm b1),
   fun b1 _ => .cmpb (.imm b1),
   fun b1 _ => .sbcb (.imm b1),
   fun _ _ => .illegalC3,
   fun b1 _ => .andb (.imm b1),
   fun b1 _ => .bitb (.imm b1),
   fun b1 _ => .ldab (.imm b1),
   fun _ _ => .illegalC7,
   fun b1 _ => .eorb (.imm b1),
   fun b1 _ => .adcb (.imm b1),
   fun b1 _ => .orab (.imm b1),
   fun b1 _ => .addb (.imm b1),
   fun _ _ => .illegalCC,
   fun _ _ => .illegalCD,
   fun b1 b2 => .ldx (.imm (joinBytes b1 b2)),
   fun _ _ => .illegalCF]

def opcodeRowD : List (Byte → Byte → Instr) :=
  [fun b1 _ => .subb (.mem (.dir b1)),
   fun b1 _ => .cmpb (.mem (.dir b1)),
   fun b1 _ => .sbcb (.mem (.dir b1)),
   fun _ _ => .illegalD3,
   fun b1 _ => .andb (.mem (.dir b1)),
   fun b1 _ => .bitb (.mem (.dir b1)),
   fun b1 _ => .ldab (.mem (.dir b1)),
   fun b1 _ => .stab (.dir b1),
   fun b1 _ => .eorb (.mem (.dir b1)),
   fun b1 _ => .adcb (.mem (.dir b1)),
   fun b1 _ => .orab (.mem (.dir b1)),
   fun b1 _ => .addb (.mem (.dir b1)),
   fun _ _ => .illegalDC,
   fun _ _ => .illegalDD,
   fun b1 _ => .ldx (.mem (.dir b1)),
   fun b1 _ => .stx (.dir b1)]

def opcodeRowE : List (Byte → Byte → Instr) :=
  [fun b1 _ => .subb (.mem (.idx b1)),
   fun b1 _ => .cmpb (.mem (.idx b1)),
   fun b1 _ => .sbcb (.mem (.idx b1)),
   fun _ _ => .illegalE3,
   fun b1 _ => .andb (.mem (.idx b1)),
   fun b1 _ => .bitb (.mem (.idx b1)),
   fun b1 _ => .ldab (.mem (.idx b1)),
   fun b1 _ => .stab (.idx b1),
   fun b1 _ => .eorb (.mem (.idx b1)),
   fun b1 _ => .adcb (.mem (.idx b1)),
   fun b1 _ => .orab (.mem (.idx b1)),
   fun b1 _ => .addb (.mem (.idx b1)),
   fun _ _ => .illegalEC,
   fun _ _ => .illegalED,
   fun b1 _ => .ldx (.mem (.idx b1)),
   fun b1 _ => .stx (.idx b1)]

def opcodeRowF : List (Byte → Byte → Instr) :=
  [fun b1 b2 => .subb (.mem (.ext (joinBytes b1 b2))),
   fun b1 b2 => .cmpb (.mem (.ext (joinBytes b1 b2))),
   fun b1 b2 => .sbcb (.mem (.ext (joinBytes b1 b2))),
   fun _ _ => .illegalF3,
   fun b1 b2 => .andb (.mem (.ext (joinBytes b1 b2))),
   fun b1 b2 => .bitb (.mem (.ext (joinBytes b1 b2))),
   fun b1 b2 => .ldab (.mem (.ext (joinBytes b1 b2))),
   fun b1 b2 => .stab (.ext (joinBytes b1 b2)),
   fun b1 b2 => .eorb (.mem (.ext (joinBytes b1 b2))),
   fun b1 b2 => .adcb (.mem (.ext (joinBytes b1 b2))),
   fun b1 b2 => .orab (.mem (.ext (joinBytes b1 b2))),
   fun b1 b2 => .addb (.mem (.ext (joinBytes b1 b2))),
   fun _ _ => .illegalFC,
   fun _ _ => .illegalFD,
   fun b1 b2 => .ldx (.mem (.ext (joinBytes b1 b2))),
   fun b1 b2 => .stx (.ext (joinBytes b1 b2))]

/-- The sixteen rows of R71; row = `opcode[7:4]`. -/
def opcodeRows : List (List (Byte → Byte → Instr)) :=
  [opcodeRow0, opcodeRow1, opcodeRow2, opcodeRow3, opcodeRow4, opcodeRow5, opcodeRow6, opcodeRow7] ++
  [opcodeRow8, opcodeRow9, opcodeRowA, opcodeRowB, opcodeRowC, opcodeRowD, opcodeRowE, opcodeRowF]

/-- The instruction of an opcode byte with the operand bytes `b1`, `b2` (R71: row `opcode[7:4]`, column `opcode[3:0]`). An
opcode that takes fewer operand bytes ignores the others. -/
def decodeWith (op b1 b2 : Byte) : Instr :=
  ((opcodeRows.getD (op.toNat / 16) []).getD (op.toNat % 16) fun _ _ => .illegal00) b1 b2

/-- The mode of a memory operand (R65 to R67). -/
def Mem.mode : Mem → AddrMode
  | .dir _ => .direct
  | .idx _ => .indexed
  | .ext _ => .extended

/-- The mode of an 8-bit source (R69). -/
def Src8.mode : Src8 → AddrMode
  | .imm _ => .byteImmediate
  | .mem m => m.mode

/-- The mode of a 16-bit source (R69). -/
def Src16.mode : Src16 → AddrMode
  | .imm _ => .wordImmediate
  | .mem m => m.mode

/-- The mode of an indexed or extended operand (R66, R67). -/
def IdxExt.mode (m : IdxExt) : AddrMode := m.toMem.mode

/-- The operand bytes of a memory operand, in memory order (R60: a two-byte operand is big-endian). -/
def Mem.bytes : Mem → List Byte
  | .dir addr => [addr]
  | .idx off => [off]
  | .ext addr => [byteHi addr, byteLo addr]

/-- The operand bytes of an 8-bit source (R60). -/
def Src8.bytes : Src8 → List Byte
  | .imm v => [v]
  | .mem m => m.bytes

/-- The operand bytes of a 16-bit source (R60). -/
def Src16.bytes : Src16 → List Byte
  | .imm v => [byteHi v, byteLo v]
  | .mem m => m.bytes

/-- The operand bytes of an indexed or extended operand (R60). -/
def IdxExt.bytes (m : IdxExt) : List Byte := m.toMem.bytes

/-- The addressing mode of an instruction's row (R71). -/
def Instr.mode : Instr → AddrMode
  | .illegal00 => .inherent
  | .nop => .inherent
  | .illegal02 => .inherent
  | .illegal03 => .inherent
  | .illegal04 => .inherent
  | .illegal05 => .inherent
  | .tap => .inherent
  | .tpa => .inherent
  | .inx => .inherent
  | .dex => .inherent
  | .clv => .inherent
  | .sev => .inherent
  | .clc => .inherent
  | .sec => .inherent
  | .cli => .inherent
  | .sei => .inherent
  | .sba => .inherent
  | .cba => .inherent
  | .illegal12 => .inherent
  | .illegal13 => .inherent
  | .illegal14 => .inherent
  | .illegal15 => .inherent
  | .tab => .inherent
  | .tba => .inherent
  | .illegal18 => .inherent
  | .daa => .inherent
  | .illegal1A => .inherent
  | .aba => .inherent
  | .illegal1C => .inherent
  | .illegal1D => .inherent
  | .illegal1E => .inherent
  | .illegal1F => .inherent
  | .bra _ => .relative
  | .illegal21 => .inherent
  | .bhi _ => .relative
  | .bls _ => .relative
  | .bcc _ => .relative
  | .bcs _ => .relative
  | .bne _ => .relative
  | .beq _ => .relative
  | .bvc _ => .relative
  | .bvs _ => .relative
  | .bpl _ => .relative
  | .bmi _ => .relative
  | .bge _ => .relative
  | .blt _ => .relative
  | .bgt _ => .relative
  | .ble _ => .relative
  | .tsx => .inherent
  | .ins => .inherent
  | .pula => .inherent
  | .pulb => .inherent
  | .des => .inherent
  | .txs => .inherent
  | .psha => .inherent
  | .pshb => .inherent
  | .illegal38 => .inherent
  | .rts => .inherent
  | .illegal3A => .inherent
  | .rti => .inherent
  | .illegal3C => .inherent
  | .illegal3D => .inherent
  | .wai => .inherent
  | .swi => .inherent
  | .nega => .inherent
  | .illegal41 => .inherent
  | .illegal42 => .inherent
  | .coma => .inherent
  | .lsra => .inherent
  | .illegal45 => .inherent
  | .rora => .inherent
  | .asra => .inherent
  | .asla => .inherent
  | .rola => .inherent
  | .deca => .inherent
  | .illegal4B => .inherent
  | .inca => .inherent
  | .tsta => .inherent
  | .illegal4E => .inherent
  | .clra => .inherent
  | .negb => .inherent
  | .illegal51 => .inherent
  | .illegal52 => .inherent
  | .comb => .inherent
  | .lsrb => .inherent
  | .illegal55 => .inherent
  | .rorb => .inherent
  | .asrb => .inherent
  | .aslb => .inherent
  | .rolb => .inherent
  | .decb => .inherent
  | .illegal5B => .inherent
  | .incb => .inherent
  | .tstb => .inherent
  | .illegal5E => .inherent
  | .clrb => .inherent
  | .neg ea => ea.mode
  | .illegal61 => .inherent
  | .illegal62 => .inherent
  | .com ea => ea.mode
  | .lsr ea => ea.mode
  | .illegal65 => .inherent
  | .ror ea => ea.mode
  | .asr ea => ea.mode
  | .asl ea => ea.mode
  | .rol ea => ea.mode
  | .dec ea => ea.mode
  | .illegal6B => .inherent
  | .inc ea => ea.mode
  | .tst ea => ea.mode
  | .jmp ea => ea.mode
  | .clr ea => ea.mode
  | .illegal71 => .inherent
  | .illegal72 => .inherent
  | .illegal75 => .inherent
  | .illegal7B => .inherent
  | .suba src => src.mode
  | .cmpa src => src.mode
  | .sbca src => src.mode
  | .illegal83 => .inherent
  | .anda src => src.mode
  | .bita src => src.mode
  | .ldaa src => src.mode
  | .illegal87 => .inherent
  | .eora src => src.mode
  | .adca src => src.mode
  | .oraa src => src.mode
  | .adda src => src.mode
  | .cpx src => src.mode
  | .bsr _ => .relative
  | .lds src => src.mode
  | .illegal8F => .inherent
  | .illegal93 => .inherent
  | .staa dst => dst.mode
  | .illegal9D => .inherent
  | .sts dst => dst.mode
  | .illegalA3 => .inherent
  | .jsr ea => ea.mode
  | .illegalB3 => .inherent
  | .subb src => src.mode
  | .cmpb src => src.mode
  | .sbcb src => src.mode
  | .illegalC3 => .inherent
  | .andb src => src.mode
  | .bitb src => src.mode
  | .ldab src => src.mode
  | .illegalC7 => .inherent
  | .eorb src => src.mode
  | .adcb src => src.mode
  | .orab src => src.mode
  | .addb src => src.mode
  | .illegalCC => .inherent
  | .illegalCD => .inherent
  | .ldx src => src.mode
  | .illegalCF => .inherent
  | .illegalD3 => .inherent
  | .stab dst => dst.mode
  | .illegalDC => .inherent
  | .illegalDD => .inherent
  | .stx dst => dst.mode
  | .illegalE3 => .inherent
  | .illegalEC => .inherent
  | .illegalED => .inherent
  | .illegalF3 => .inherent
  | .illegalFC => .inherent
  | .illegalFD => .inherent

/-- The mnemonic of an instruction's row, as spec/opcode_table.json spells it (R71, R72). -/
def Instr.mnemonic : Instr → String
  | .illegal00 => "ILLEGAL_00"
  | .nop => "NOP"
  | .illegal02 => "ILLEGAL_02"
  | .illegal03 => "ILLEGAL_03"
  | .illegal04 => "ILLEGAL_04"
  | .illegal05 => "ILLEGAL_05"
  | .tap => "TAP"
  | .tpa => "TPA"
  | .inx => "INX"
  | .dex => "DEX"
  | .clv => "CLV"
  | .sev => "SEV"
  | .clc => "CLC"
  | .sec => "SEC"
  | .cli => "CLI"
  | .sei => "SEI"
  | .sba => "SBA"
  | .cba => "CBA"
  | .illegal12 => "ILLEGAL_12"
  | .illegal13 => "ILLEGAL_13"
  | .illegal14 => "ILLEGAL_14"
  | .illegal15 => "ILLEGAL_15"
  | .tab => "TAB"
  | .tba => "TBA"
  | .illegal18 => "ILLEGAL_18"
  | .daa => "DAA"
  | .illegal1A => "ILLEGAL_1A"
  | .aba => "ABA"
  | .illegal1C => "ILLEGAL_1C"
  | .illegal1D => "ILLEGAL_1D"
  | .illegal1E => "ILLEGAL_1E"
  | .illegal1F => "ILLEGAL_1F"
  | .bra _ => "BRA"
  | .illegal21 => "ILLEGAL_21"
  | .bhi _ => "BHI"
  | .bls _ => "BLS"
  | .bcc _ => "BCC"
  | .bcs _ => "BCS"
  | .bne _ => "BNE"
  | .beq _ => "BEQ"
  | .bvc _ => "BVC"
  | .bvs _ => "BVS"
  | .bpl _ => "BPL"
  | .bmi _ => "BMI"
  | .bge _ => "BGE"
  | .blt _ => "BLT"
  | .bgt _ => "BGT"
  | .ble _ => "BLE"
  | .tsx => "TSX"
  | .ins => "INS"
  | .pula => "PULA"
  | .pulb => "PULB"
  | .des => "DES"
  | .txs => "TXS"
  | .psha => "PSHA"
  | .pshb => "PSHB"
  | .illegal38 => "ILLEGAL_38"
  | .rts => "RTS"
  | .illegal3A => "ILLEGAL_3A"
  | .rti => "RTI"
  | .illegal3C => "ILLEGAL_3C"
  | .illegal3D => "ILLEGAL_3D"
  | .wai => "WAI"
  | .swi => "SWI"
  | .nega => "NEGA"
  | .illegal41 => "ILLEGAL_41"
  | .illegal42 => "ILLEGAL_42"
  | .coma => "COMA"
  | .lsra => "LSRA"
  | .illegal45 => "ILLEGAL_45"
  | .rora => "RORA"
  | .asra => "ASRA"
  | .asla => "ASLA"
  | .rola => "ROLA"
  | .deca => "DECA"
  | .illegal4B => "ILLEGAL_4B"
  | .inca => "INCA"
  | .tsta => "TSTA"
  | .illegal4E => "ILLEGAL_4E"
  | .clra => "CLRA"
  | .negb => "NEGB"
  | .illegal51 => "ILLEGAL_51"
  | .illegal52 => "ILLEGAL_52"
  | .comb => "COMB"
  | .lsrb => "LSRB"
  | .illegal55 => "ILLEGAL_55"
  | .rorb => "RORB"
  | .asrb => "ASRB"
  | .aslb => "ASLB"
  | .rolb => "ROLB"
  | .decb => "DECB"
  | .illegal5B => "ILLEGAL_5B"
  | .incb => "INCB"
  | .tstb => "TSTB"
  | .illegal5E => "ILLEGAL_5E"
  | .clrb => "CLRB"
  | .neg _ => "NEG"
  | .illegal61 => "ILLEGAL_61"
  | .illegal62 => "ILLEGAL_62"
  | .com _ => "COM"
  | .lsr _ => "LSR"
  | .illegal65 => "ILLEGAL_65"
  | .ror _ => "ROR"
  | .asr _ => "ASR"
  | .asl _ => "ASL"
  | .rol _ => "ROL"
  | .dec _ => "DEC"
  | .illegal6B => "ILLEGAL_6B"
  | .inc _ => "INC"
  | .tst _ => "TST"
  | .jmp _ => "JMP"
  | .clr _ => "CLR"
  | .illegal71 => "ILLEGAL_71"
  | .illegal72 => "ILLEGAL_72"
  | .illegal75 => "ILLEGAL_75"
  | .illegal7B => "ILLEGAL_7B"
  | .suba _ => "SUBA"
  | .cmpa _ => "CMPA"
  | .sbca _ => "SBCA"
  | .illegal83 => "ILLEGAL_83"
  | .anda _ => "ANDA"
  | .bita _ => "BITA"
  | .ldaa _ => "LDAA"
  | .illegal87 => "ILLEGAL_87"
  | .eora _ => "EORA"
  | .adca _ => "ADCA"
  | .oraa _ => "ORAA"
  | .adda _ => "ADDA"
  | .cpx _ => "CPX"
  | .bsr _ => "BSR"
  | .lds _ => "LDS"
  | .illegal8F => "ILLEGAL_8F"
  | .illegal93 => "ILLEGAL_93"
  | .staa _ => "STAA"
  | .illegal9D => "ILLEGAL_9D"
  | .sts _ => "STS"
  | .illegalA3 => "ILLEGAL_A3"
  | .jsr _ => "JSR"
  | .illegalB3 => "ILLEGAL_B3"
  | .subb _ => "SUBB"
  | .cmpb _ => "CMPB"
  | .sbcb _ => "SBCB"
  | .illegalC3 => "ILLEGAL_C3"
  | .andb _ => "ANDB"
  | .bitb _ => "BITB"
  | .ldab _ => "LDAB"
  | .illegalC7 => "ILLEGAL_C7"
  | .eorb _ => "EORB"
  | .adcb _ => "ADCB"
  | .orab _ => "ORAB"
  | .addb _ => "ADDB"
  | .illegalCC => "ILLEGAL_CC"
  | .illegalCD => "ILLEGAL_CD"
  | .ldx _ => "LDX"
  | .illegalCF => "ILLEGAL_CF"
  | .illegalD3 => "ILLEGAL_D3"
  | .stab _ => "STAB"
  | .illegalDC => "ILLEGAL_DC"
  | .illegalDD => "ILLEGAL_DD"
  | .stx _ => "STX"
  | .illegalE3 => "ILLEGAL_E3"
  | .illegalEC => "ILLEGAL_EC"
  | .illegalED => "ILLEGAL_ED"
  | .illegalF3 => "ILLEGAL_F3"
  | .illegalFC => "ILLEGAL_FC"
  | .illegalFD => "ILLEGAL_FD"

/-! Cycle counts: reference data, on which no rule depends (R285, D29). -/

/-- The cycle counts, by mode, of an instruction's rows; `inh` and `rel` are one column here, since no mnemonic has both. -/
structure Cycles where
  inh : Option Nat := none
  imm : Option Nat := none
  dir : Option Nat := none
  idx : Option Nat := none
  ext : Option Nat := none
deriving DecidableEq, Repr

/-- The count of a mode. -/
def Cycles.of (c : Cycles) : AddrMode → Option Nat
  | .inherent => c.inh
  | .relative => c.inh
  | .byteImmediate => c.imm
  | .wordImmediate => c.imm
  | .direct => c.dir
  | .indexed => c.idx
  | .extended => c.ext

/-- The cycle counts of a mnemonic's rows (R285). -/
def Instr.cycleRow : Instr → Cycles
  | .illegal00 => {}
  | .nop => { inh := some 2 }
  | .illegal02 => {}
  | .illegal03 => {}
  | .illegal04 => {}
  | .illegal05 => {}
  | .tap => { inh := some 2 }
  | .tpa => { inh := some 2 }
  | .inx => { inh := some 4 }
  | .dex => { inh := some 4 }
  | .clv => { inh := some 2 }
  | .sev => { inh := some 2 }
  | .clc => { inh := some 2 }
  | .sec => { inh := some 2 }
  | .cli => { inh := some 2 }
  | .sei => { inh := some 2 }
  | .sba => { inh := some 2 }
  | .cba => { inh := some 2 }
  | .illegal12 => {}
  | .illegal13 => {}
  | .illegal14 => {}
  | .illegal15 => {}
  | .tab => { inh := some 2 }
  | .tba => { inh := some 2 }
  | .illegal18 => {}
  | .daa => { inh := some 2 }
  | .illegal1A => {}
  | .aba => { inh := some 2 }
  | .illegal1C => {}
  | .illegal1D => {}
  | .illegal1E => {}
  | .illegal1F => {}
  | .bra _ => { inh := some 4 }
  | .illegal21 => {}
  | .bhi _ => { inh := some 4 }
  | .bls _ => { inh := some 4 }
  | .bcc _ => { inh := some 4 }
  | .bcs _ => { inh := some 4 }
  | .bne _ => { inh := some 4 }
  | .beq _ => { inh := some 4 }
  | .bvc _ => { inh := some 4 }
  | .bvs _ => { inh := some 4 }
  | .bpl _ => { inh := some 4 }
  | .bmi _ => { inh := some 4 }
  | .bge _ => { inh := some 4 }
  | .blt _ => { inh := some 4 }
  | .bgt _ => { inh := some 4 }
  | .ble _ => { inh := some 4 }
  | .tsx => { inh := some 4 }
  | .ins => { inh := some 4 }
  | .pula => { inh := some 4 }
  | .pulb => { inh := some 4 }
  | .des => { inh := some 4 }
  | .txs => { inh := some 4 }
  | .psha => { inh := some 4 }
  | .pshb => { inh := some 4 }
  | .illegal38 => {}
  | .rts => { inh := some 5 }
  | .illegal3A => {}
  | .rti => { inh := some 10 }
  | .illegal3C => {}
  | .illegal3D => {}
  | .wai => { inh := some 9 }
  | .swi => { inh := some 12 }
  | .nega => { inh := some 2 }
  | .illegal41 => {}
  | .illegal42 => {}
  | .coma => { inh := some 2 }
  | .lsra => { inh := some 2 }
  | .illegal45 => {}
  | .rora => { inh := some 2 }
  | .asra => { inh := some 2 }
  | .asla => { inh := some 2 }
  | .rola => { inh := some 2 }
  | .deca => { inh := some 2 }
  | .illegal4B => {}
  | .inca => { inh := some 2 }
  | .tsta => { inh := some 2 }
  | .illegal4E => {}
  | .clra => { inh := some 2 }
  | .negb => { inh := some 2 }
  | .illegal51 => {}
  | .illegal52 => {}
  | .comb => { inh := some 2 }
  | .lsrb => { inh := some 2 }
  | .illegal55 => {}
  | .rorb => { inh := some 2 }
  | .asrb => { inh := some 2 }
  | .aslb => { inh := some 2 }
  | .rolb => { inh := some 2 }
  | .decb => { inh := some 2 }
  | .illegal5B => {}
  | .incb => { inh := some 2 }
  | .tstb => { inh := some 2 }
  | .illegal5E => {}
  | .clrb => { inh := some 2 }
  | .neg _ => { idx := some 7, ext := some 6 }
  | .illegal61 => {}
  | .illegal62 => {}
  | .com _ => { idx := some 7, ext := some 6 }
  | .lsr _ => { idx := some 7, ext := some 6 }
  | .illegal65 => {}
  | .ror _ => { idx := some 7, ext := some 6 }
  | .asr _ => { idx := some 7, ext := some 6 }
  | .asl _ => { idx := some 7, ext := some 6 }
  | .rol _ => { idx := some 7, ext := some 6 }
  | .dec _ => { idx := some 7, ext := some 6 }
  | .illegal6B => {}
  | .inc _ => { idx := some 7, ext := some 6 }
  | .tst _ => { idx := some 7, ext := some 6 }
  | .jmp _ => { idx := some 4, ext := some 3 }
  | .clr _ => { idx := some 7, ext := some 6 }
  | .illegal71 => {}
  | .illegal72 => {}
  | .illegal75 => {}
  | .illegal7B => {}
  | .suba _ => { imm := some 2, dir := some 3, idx := some 5, ext := some 4 }
  | .cmpa _ => { imm := some 2, dir := some 3, idx := some 5, ext := some 4 }
  | .sbca _ => { imm := some 2, dir := some 3, idx := some 5, ext := some 4 }
  | .illegal83 => {}
  | .anda _ => { imm := some 2, dir := some 3, idx := some 5, ext := some 4 }
  | .bita _ => { imm := some 2, dir := some 3, idx := some 5, ext := some 4 }
  | .ldaa _ => { imm := some 2, dir := some 3, idx := some 5, ext := some 4 }
  | .illegal87 => {}
  | .eora _ => { imm := some 2, dir := some 3, idx := some 5, ext := some 4 }
  | .adca _ => { imm := some 2, dir := some 3, idx := some 5, ext := some 4 }
  | .oraa _ => { imm := some 2, dir := some 3, idx := some 5, ext := some 4 }
  | .adda _ => { imm := some 2, dir := some 3, idx := some 5, ext := some 4 }
  | .cpx _ => { imm := some 3, dir := some 4, idx := some 6, ext := some 5 }
  | .bsr _ => { inh := some 8 }
  | .lds _ => { imm := some 3, dir := some 4, idx := some 6, ext := some 5 }
  | .illegal8F => {}
  | .illegal93 => {}
  | .staa _ => { dir := some 4, idx := some 6, ext := some 5 }
  | .illegal9D => {}
  | .sts _ => { dir := some 5, idx := some 7, ext := some 6 }
  | .illegalA3 => {}
  | .jsr _ => { idx := some 8, ext := some 9 }
  | .illegalB3 => {}
  | .subb _ => { imm := some 2, dir := some 3, idx := some 5, ext := some 4 }
  | .cmpb _ => { imm := some 2, dir := some 3, idx := some 5, ext := some 4 }
  | .sbcb _ => { imm := some 2, dir := some 3, idx := some 5, ext := some 4 }
  | .illegalC3 => {}
  | .andb _ => { imm := some 2, dir := some 3, idx := some 5, ext := some 4 }
  | .bitb _ => { imm := some 2, dir := some 3, idx := some 5, ext := some 4 }
  | .ldab _ => { imm := some 2, dir := some 3, idx := some 5, ext := some 4 }
  | .illegalC7 => {}
  | .eorb _ => { imm := some 2, dir := some 3, idx := some 5, ext := some 4 }
  | .adcb _ => { imm := some 2, dir := some 3, idx := some 5, ext := some 4 }
  | .orab _ => { imm := some 2, dir := some 3, idx := some 5, ext := some 4 }
  | .addb _ => { imm := some 2, dir := some 3, idx := some 5, ext := some 4 }
  | .illegalCC => {}
  | .illegalCD => {}
  | .ldx _ => { imm := some 3, dir := some 4, idx := some 6, ext := some 5 }
  | .illegalCF => {}
  | .illegalD3 => {}
  | .stab _ => { dir := some 4, idx := some 6, ext := some 5 }
  | .illegalDC => {}
  | .illegalDD => {}
  | .stx _ => { dir := some 5, idx := some 7, ext := some 6 }
  | .illegalE3 => {}
  | .illegalEC => {}
  | .illegalED => {}
  | .illegalF3 => {}
  | .illegalFC => {}
  | .illegalFD => {}

/-- The cycle count of an instruction's row, none for an illegal byte (R285). -/
def Instr.cycles (i : Instr) : Option Nat := i.cycleRow.of i.mode

/-- The number of operand bytes of a mode (R60, R63 to R68). -/
def AddrMode.operandBytes : AddrMode → Nat
  | .inherent => 0
  | .relative => 1
  | .byteImmediate => 1
  | .wordImmediate => 2
  | .direct => 1
  | .indexed => 1
  | .extended => 2

/-- The number of operand bytes that follow an opcode byte: the opcode alone decides it (R60, R73). -/
def operandCount (op : Byte) : Nat := (decodeWith op 0 0).mode.operandBytes

/-- The descriptor of an opcode byte (R61): mnemonic, addressing mode, cycle count, and whether the 6800/6802 lacks it. -/
structure Descriptor where
  mnemonic : String
  mode : AddrMode
  cycles : Option Nat
  invalid : Bool
deriving DecidableEq, Repr

/-- `describe(opcode)` of R61: a pure lookup, total on every byte. -/
def describe (op : Byte) : Descriptor where
  mnemonic := (decodeWith op 0 0).mnemonic
  mode := (decodeWith op 0 0).mode
  cycles := (decodeWith op 0 0).cycles
  invalid := !(decodeWith op 0 0).valid

/-- The decoder (R60, R61, R71, R73): the instruction at the head of a byte sequence and the bytes after it. Total; it
rejects only a sequence that is too short, by name. -/
def decode : List Byte → Decoded
  | [] => .error .noBytes
  | op :: rest =>
    match operandCount op, rest with
    | 0, rest => .instr (decodeWith op 0 0) rest
    | 1, b1 :: rest => .instr (decodeWith op b1 0) rest
    | 2, b1 :: b2 :: rest => .instr (decodeWith op b1 b2) rest
    | _, _ => .error (.missingOperand op)

/-! The encoder. The opcode of a mnemonic with several rows depends on the mode of the operand (R71). -/

/-- The opcode among the four of an 8-bit source. -/
def Src8.pick (imm dir idx ext : Byte) (m : Src8) : Byte :=
  match m with
  | .imm _ => imm
  | .mem (.dir _) => dir
  | .mem (.idx _) => idx
  | .mem (.ext _) => ext

/-- The opcode among the four of a 16-bit source. -/
def Src16.pick (imm dir idx ext : Byte) (m : Src16) : Byte :=
  match m with
  | .imm _ => imm
  | .mem (.dir _) => dir
  | .mem (.idx _) => idx
  | .mem (.ext _) => ext

/-- The opcode among the three of a memory operand. -/
def Mem.pick (dir idx ext : Byte) (m : Mem) : Byte :=
  match m with
  | .dir _ => dir
  | .idx _ => idx
  | .ext _ => ext

/-- The opcode among the two of an indexed or extended operand. -/
def IdxExt.pick (idx ext : Byte) (m : IdxExt) : Byte :=
  match m with
  | .idx _ => idx
  | .ext _ => ext

/-- The opcode byte of an instruction's row (R71). -/
def Instr.opcode : Instr → Byte
  | .illegal00 => 0x00
  | .nop => 0x01
  | .illegal02 => 0x02
  | .illegal03 => 0x03
  | .illegal04 => 0x04
  | .illegal05 => 0x05
  | .tap => 0x06
  | .tpa => 0x07
  | .inx => 0x08
  | .dex => 0x09
  | .clv => 0x0A
  | .sev => 0x0B
  | .clc => 0x0C
  | .sec => 0x0D
  | .cli => 0x0E
  | .sei => 0x0F
  | .sba => 0x10
  | .cba => 0x11
  | .illegal12 => 0x12
  | .illegal13 => 0x13
  | .illegal14 => 0x14
  | .illegal15 => 0x15
  | .tab => 0x16
  | .tba => 0x17
  | .illegal18 => 0x18
  | .daa => 0x19
  | .illegal1A => 0x1A
  | .aba => 0x1B
  | .illegal1C => 0x1C
  | .illegal1D => 0x1D
  | .illegal1E => 0x1E
  | .illegal1F => 0x1F
  | .bra _ => 0x20
  | .illegal21 => 0x21
  | .bhi _ => 0x22
  | .bls _ => 0x23
  | .bcc _ => 0x24
  | .bcs _ => 0x25
  | .bne _ => 0x26
  | .beq _ => 0x27
  | .bvc _ => 0x28
  | .bvs _ => 0x29
  | .bpl _ => 0x2A
  | .bmi _ => 0x2B
  | .bge _ => 0x2C
  | .blt _ => 0x2D
  | .bgt _ => 0x2E
  | .ble _ => 0x2F
  | .tsx => 0x30
  | .ins => 0x31
  | .pula => 0x32
  | .pulb => 0x33
  | .des => 0x34
  | .txs => 0x35
  | .psha => 0x36
  | .pshb => 0x37
  | .illegal38 => 0x38
  | .rts => 0x39
  | .illegal3A => 0x3A
  | .rti => 0x3B
  | .illegal3C => 0x3C
  | .illegal3D => 0x3D
  | .wai => 0x3E
  | .swi => 0x3F
  | .nega => 0x40
  | .illegal41 => 0x41
  | .illegal42 => 0x42
  | .coma => 0x43
  | .lsra => 0x44
  | .illegal45 => 0x45
  | .rora => 0x46
  | .asra => 0x47
  | .asla => 0x48
  | .rola => 0x49
  | .deca => 0x4A
  | .illegal4B => 0x4B
  | .inca => 0x4C
  | .tsta => 0x4D
  | .illegal4E => 0x4E
  | .clra => 0x4F
  | .negb => 0x50
  | .illegal51 => 0x51
  | .illegal52 => 0x52
  | .comb => 0x53
  | .lsrb => 0x54
  | .illegal55 => 0x55
  | .rorb => 0x56
  | .asrb => 0x57
  | .aslb => 0x58
  | .rolb => 0x59
  | .decb => 0x5A
  | .illegal5B => 0x5B
  | .incb => 0x5C
  | .tstb => 0x5D
  | .illegal5E => 0x5E
  | .clrb => 0x5F
  | .neg ea => ea.pick 0x60 0x70
  | .illegal61 => 0x61
  | .illegal62 => 0x62
  | .com ea => ea.pick 0x63 0x73
  | .lsr ea => ea.pick 0x64 0x74
  | .illegal65 => 0x65
  | .ror ea => ea.pick 0x66 0x76
  | .asr ea => ea.pick 0x67 0x77
  | .asl ea => ea.pick 0x68 0x78
  | .rol ea => ea.pick 0x69 0x79
  | .dec ea => ea.pick 0x6A 0x7A
  | .illegal6B => 0x6B
  | .inc ea => ea.pick 0x6C 0x7C
  | .tst ea => ea.pick 0x6D 0x7D
  | .jmp ea => ea.pick 0x6E 0x7E
  | .clr ea => ea.pick 0x6F 0x7F
  | .illegal71 => 0x71
  | .illegal72 => 0x72
  | .illegal75 => 0x75
  | .illegal7B => 0x7B
  | .suba src => src.pick 0x80 0x90 0xA0 0xB0
  | .cmpa src => src.pick 0x81 0x91 0xA1 0xB1
  | .sbca src => src.pick 0x82 0x92 0xA2 0xB2
  | .illegal83 => 0x83
  | .anda src => src.pick 0x84 0x94 0xA4 0xB4
  | .bita src => src.pick 0x85 0x95 0xA5 0xB5
  | .ldaa src => src.pick 0x86 0x96 0xA6 0xB6
  | .illegal87 => 0x87
  | .eora src => src.pick 0x88 0x98 0xA8 0xB8
  | .adca src => src.pick 0x89 0x99 0xA9 0xB9
  | .oraa src => src.pick 0x8A 0x9A 0xAA 0xBA
  | .adda src => src.pick 0x8B 0x9B 0xAB 0xBB
  | .cpx src => src.pick 0x8C 0x9C 0xAC 0xBC
  | .bsr _ => 0x8D
  | .lds src => src.pick 0x8E 0x9E 0xAE 0xBE
  | .illegal8F => 0x8F
  | .illegal93 => 0x93
  | .staa dst => dst.pick 0x97 0xA7 0xB7
  | .illegal9D => 0x9D
  | .sts dst => dst.pick 0x9F 0xAF 0xBF
  | .illegalA3 => 0xA3
  | .jsr ea => ea.pick 0xAD 0xBD
  | .illegalB3 => 0xB3
  | .subb src => src.pick 0xC0 0xD0 0xE0 0xF0
  | .cmpb src => src.pick 0xC1 0xD1 0xE1 0xF1
  | .sbcb src => src.pick 0xC2 0xD2 0xE2 0xF2
  | .illegalC3 => 0xC3
  | .andb src => src.pick 0xC4 0xD4 0xE4 0xF4
  | .bitb src => src.pick 0xC5 0xD5 0xE5 0xF5
  | .ldab src => src.pick 0xC6 0xD6 0xE6 0xF6
  | .illegalC7 => 0xC7
  | .eorb src => src.pick 0xC8 0xD8 0xE8 0xF8
  | .adcb src => src.pick 0xC9 0xD9 0xE9 0xF9
  | .orab src => src.pick 0xCA 0xDA 0xEA 0xFA
  | .addb src => src.pick 0xCB 0xDB 0xEB 0xFB
  | .illegalCC => 0xCC
  | .illegalCD => 0xCD
  | .ldx src => src.pick 0xCE 0xDE 0xEE 0xFE
  | .illegalCF => 0xCF
  | .illegalD3 => 0xD3
  | .stab dst => dst.pick 0xD7 0xE7 0xF7
  | .illegalDC => 0xDC
  | .illegalDD => 0xDD
  | .stx dst => dst.pick 0xDF 0xEF 0xFF
  | .illegalE3 => 0xE3
  | .illegalEC => 0xEC
  | .illegalED => 0xED
  | .illegalF3 => 0xF3
  | .illegalFC => 0xFC
  | .illegalFD => 0xFD

/-- The operand bytes of an instruction, in memory order (R60). -/
def Instr.operand : Instr → List Byte
  | .illegal00 => []
  | .nop => []
  | .illegal02 => []
  | .illegal03 => []
  | .illegal04 => []
  | .illegal05 => []
  | .tap => []
  | .tpa => []
  | .inx => []
  | .dex => []
  | .clv => []
  | .sev => []
  | .clc => []
  | .sec => []
  | .cli => []
  | .sei => []
  | .sba => []
  | .cba => []
  | .illegal12 => []
  | .illegal13 => []
  | .illegal14 => []
  | .illegal15 => []
  | .tab => []
  | .tba => []
  | .illegal18 => []
  | .daa => []
  | .illegal1A => []
  | .aba => []
  | .illegal1C => []
  | .illegal1D => []
  | .illegal1E => []
  | .illegal1F => []
  | .bra rel => [rel]
  | .illegal21 => []
  | .bhi rel => [rel]
  | .bls rel => [rel]
  | .bcc rel => [rel]
  | .bcs rel => [rel]
  | .bne rel => [rel]
  | .beq rel => [rel]
  | .bvc rel => [rel]
  | .bvs rel => [rel]
  | .bpl rel => [rel]
  | .bmi rel => [rel]
  | .bge rel => [rel]
  | .blt rel => [rel]
  | .bgt rel => [rel]
  | .ble rel => [rel]
  | .tsx => []
  | .ins => []
  | .pula => []
  | .pulb => []
  | .des => []
  | .txs => []
  | .psha => []
  | .pshb => []
  | .illegal38 => []
  | .rts => []
  | .illegal3A => []
  | .rti => []
  | .illegal3C => []
  | .illegal3D => []
  | .wai => []
  | .swi => []
  | .nega => []
  | .illegal41 => []
  | .illegal42 => []
  | .coma => []
  | .lsra => []
  | .illegal45 => []
  | .rora => []
  | .asra => []
  | .asla => []
  | .rola => []
  | .deca => []
  | .illegal4B => []
  | .inca => []
  | .tsta => []
  | .illegal4E => []
  | .clra => []
  | .negb => []
  | .illegal51 => []
  | .illegal52 => []
  | .comb => []
  | .lsrb => []
  | .illegal55 => []
  | .rorb => []
  | .asrb => []
  | .aslb => []
  | .rolb => []
  | .decb => []
  | .illegal5B => []
  | .incb => []
  | .tstb => []
  | .illegal5E => []
  | .clrb => []
  | .neg ea => ea.bytes
  | .illegal61 => []
  | .illegal62 => []
  | .com ea => ea.bytes
  | .lsr ea => ea.bytes
  | .illegal65 => []
  | .ror ea => ea.bytes
  | .asr ea => ea.bytes
  | .asl ea => ea.bytes
  | .rol ea => ea.bytes
  | .dec ea => ea.bytes
  | .illegal6B => []
  | .inc ea => ea.bytes
  | .tst ea => ea.bytes
  | .jmp ea => ea.bytes
  | .clr ea => ea.bytes
  | .illegal71 => []
  | .illegal72 => []
  | .illegal75 => []
  | .illegal7B => []
  | .suba src => src.bytes
  | .cmpa src => src.bytes
  | .sbca src => src.bytes
  | .illegal83 => []
  | .anda src => src.bytes
  | .bita src => src.bytes
  | .ldaa src => src.bytes
  | .illegal87 => []
  | .eora src => src.bytes
  | .adca src => src.bytes
  | .oraa src => src.bytes
  | .adda src => src.bytes
  | .cpx src => src.bytes
  | .bsr rel => [rel]
  | .lds src => src.bytes
  | .illegal8F => []
  | .illegal93 => []
  | .staa dst => dst.bytes
  | .illegal9D => []
  | .sts dst => dst.bytes
  | .illegalA3 => []
  | .jsr ea => ea.bytes
  | .illegalB3 => []
  | .subb src => src.bytes
  | .cmpb src => src.bytes
  | .sbcb src => src.bytes
  | .illegalC3 => []
  | .andb src => src.bytes
  | .bitb src => src.bytes
  | .ldab src => src.bytes
  | .illegalC7 => []
  | .eorb src => src.bytes
  | .adcb src => src.bytes
  | .orab src => src.bytes
  | .addb src => src.bytes
  | .illegalCC => []
  | .illegalCD => []
  | .ldx src => src.bytes
  | .illegalCF => []
  | .illegalD3 => []
  | .stab dst => dst.bytes
  | .illegalDC => []
  | .illegalDD => []
  | .stx dst => dst.bytes
  | .illegalE3 => []
  | .illegalEC => []
  | .illegalED => []
  | .illegalF3 => []
  | .illegalFC => []
  | .illegalFD => []

/-- The encoder: the opcode byte and then the operand bytes (R60). -/
def encode (i : Instr) : List Byte := i.opcode :: i.operand

/-- The instruction the decoder reads from a row of spec/opcode_table.json whose bits are `w`, the first byte in bits 7..0
and a later byte above it; bits at and above `nbits` are 0. -/
def decodeTableWord (nbits w : Nat) : Option Instr :=
  let v := w % 2 ^ nbits
  match decode [BitVec.ofNat 8 v, BitVec.ofNat 8 (v / 256), BitVec.ofNat 8 (v / 65536)] with
  | .instr i _ => some i
  | .error _ => none

end Sys2Proof
end

