-- ==== Sys2Proof/Config.lean ====
section
/-! DEFINITION. The configuration parameters of spec R5: what is fixed when the machine is built and never changes while it
runs. A `Config` is plain data that `State` carries in one field no step writes, so that a statement about every state is a
statement about every configuration (log entry 1). The two opaque constants are the source of free
values (log entry 6) and the rounding of an uninterpreted number format (log entry 8). -/

namespace Sys2Proof

/-- Who answers at a region of the bus (R30): RAM, the ROM bank `k`, or the PIA. -/
inductive Owner where
  | ram
  | rom (k : Nat)
  | pia
deriving DecidableEq, Repr

/-- One entry of `REGIONS` (R30): the addresses `lo` to `hi` inclusive, their owner, the offset of `lo` in the owner's
image, and whether a write is allowed. -/
structure Region where
  lo : Word
  hi : Word
  owner : Owner
  baseOffset : Nat
  writable : Bool
deriving DecidableEq, Repr

/-- `WAI_MODE` (R5, R211, D9). -/
inductive WaiMode where
  | motorola
  | fault
deriving DecidableEq, Repr

/-- How a result between two neighbouring numbers of a format is rounded (R5, R252): to the nearer, a tie going to the even or
to the greater magnitude, or in one direction. -/
inductive Rounding where
  | nearestEven
  | nearestAway
  | towardZero
  | towardPositive
  | towardNegative
deriving DecidableEq, Repr

/-- `CVSD_FLOAT` (R5, R252, D22): the format and the rounding of the decoder's arithmetic. `exact` is the real-number arithmetic
R250 is written in; `binary p e r` rounds each result by `r` in a format of `p` significand bits whose smallest unit in the last
place is `2 ^ e`; `uninterpreted k` rounds each result by a function nothing is known of, so that a claim about it holds for
every format and rounding (log entry 8). -/
inductive NumFormat where
  | exact
  | binary (precision : Nat) (minExp : Int) (rounding : Rounding)
  | uninterpreted (k : Nat)
deriving DecidableEq, Repr

/-- The parameters of R5. `PIA_BASE` is the `lo` of the PIA's region (R30) and is not stored a second time. A ROM image is a
list of (offset, byte) cells; an offset it does not list holds 0x00 (log entry 5). -/
structure Config where
  regions : List Region
  romImages : List (List Host.Cell)
  clrReadsOperand : Bool
  waiMode : WaiMode
  cvsdFMax : Rat
  cvsdFMin : Rat
  cvsdFilterLeak : Rat
  cvsdStateLeak : Rat
  cvsdFloat : NumFormat
deriving DecidableEq, Repr

/-- DESIGN CHOICE (log entry 2): the configuration of `State.reset`. It is the spec's own example, test configuration TC of
95_test_vectors.md: RAM at 0x0000 to 0x00FF, the PIA window at 0x0400, 4 KiB of ROM at 0xF000 that holds nothing but the
reset vector 0xF000, and the decoder constants of its T2.12. -/
def Config.tc : Config where
  regions :=
    [{ lo := 0x0000, hi := 0x00FF, owner := .ram, baseOffset := 0, writable := true },
     { lo := 0x0400, hi := 0x0403, owner := .pia, baseOffset := 0, writable := true },
     { lo := 0xF000, hi := 0xFFFF, owner := .rom 0, baseOffset := 0, writable := false }]
  romImages := [[(0xFFE, 0xF0)]]
  clrReadsOperand := true
  waiMode := .motorola
  cvsdFMax := 1 / 2
  cvsdFMin := -1 / 2
  cvsdFilterLeak := 1 / 2
  cvsdStateLeak := 3 / 4
  cvsdFloat := .exact

/-- The free values of the model: the `n`-th bit drawn where the spec leaves a bit unspecified (the flag V after DAA, R114,
U3). It has no body, so nothing can be proved about what it is (log entry 6). -/
opaque Config.freeBit : Nat → Bool

/-- What the `k`-th uninterpreted number format makes of the exact result of one operation (R252, U10). It has no body (log entry
8). -/
opaque Config.freeRound : Nat → Rat → Rat

end Sys2Proof
end

