-- ==== Sys2Proof/Machine/Memory.lean ====
section
/-! DEFINITION. Byte memory in one canonical form: a list of (address, byte) cells, addresses strictly rising, no cell equal
to what an unlisted address reads as. RAM (R21, R31) and the ROM images of the configuration are held in it. -/

namespace Sys2Proof.Machine

open Host

/-- Sparse byte memory. -/
abbrev Memory := List Cell

/-- DESIGN CHOICE (log entry 4 for RAM, log entry 5 for a ROM image): what an address without a cell reads as. The spec gives
RAM no contents at power-up (R21, U5). -/
def unlistedByte : Byte := 0x00

/-- The byte at an address. -/
def Memory.read : Memory → Nat → Byte
  | [], _ => unlistedByte
  | (b, w) :: rest, a => if a = b then w else Memory.read rest a

/-- Memory without the cells of an address. -/
def Memory.erase (m : Memory) (a : Nat) : Memory := m.filter fun c => c.1 != a

/-- A cell put before the first cell of a higher address. -/
def Memory.insert : Memory → Nat → Byte → Memory
  | [], a, v => [(a, v)]
  | (b, w) :: rest, a, v => if a < b then (a, v) :: (b, w) :: rest else (b, w) :: Memory.insert rest a v

/-- Memory with one byte replaced. The result of writing what an unlisted address reads as is that the address is unlisted. -/
def Memory.write (m : Memory) (a : Nat) (v : Byte) : Memory :=
  if v = unlistedByte then m.erase a else (m.erase a).insert a v

/-- The canonical form. -/
abbrev Memory.wf (m : Memory) : Prop :=
  m.Pairwise (fun x y => x.1 < y.1) ∧ ∀ c ∈ m, c.2 ≠ unlistedByte

end Sys2Proof.Machine
end

