-- ==== Sys2Proof/Machine/AddressMap.lean ====
section
/-! DEFINITION. Address decode (R30): which region an address resolves to, what byte a ROM image holds, and which
configurations are legal. All of it reads the configuration only. -/

namespace Sys2Proof.Machine

/-- Whether a region holds an address (R30: `lo <= addr <= hi`). -/
def regionHolds (r : Region) (addr : Word) : Bool := decide (r.lo ≤ addr) && decide (addr ≤ r.hi)

/-- `resolve(addr)` of R30: the region of an address, none where the address is invalid. In a legal configuration at most one
region holds it; otherwise the first in the list answers (log entry 12). -/
def resolve (c : Config) (addr : Word) : Option Region := c.regions.find? fun r => regionHolds r addr

/-- `ROM_IMAGE(k)` (R5, R21): the bytes of bank `k`, by offset. -/
def romImage (c : Config) (k : Nat) : Memory := c.romImages.getD k []

/-- The byte the ROM region `r` of bank `k` holds at an address (R32): `ROM_IMAGE(k)[base_offset + (addr - lo)]`. -/
def romByte (c : Config) (k : Nat) (r : Region) (addr : Word) : Byte :=
  (romImage c k).read (r.baseOffset + (addr - r.lo).toNat)

/-- The byte a ROM holds at an address, none where no ROM region answers. -/
def romPeek (c : Config) (addr : Word) : Option Byte :=
  match resolve c addr with
  | some r =>
    match r.owner with
    | .rom k => some (romByte c k r addr)
    | .ram => none
    | .pia => none
  | none => none

/-- `PIA_BASE` (R5, R30): the `lo` of the PIA's region. -/
def piaBase (c : Config) : Option Word := (c.regions.find? fun r => r.owner == .pia).map (·.lo)

/-- Two regions have no address in common (R30). -/
abbrev regionsDisjoint (r q : Region) : Prop := r.hi < q.lo ∨ q.hi < r.lo

/-- One region is as R30 asks: its range is not empty, RAM is writable, ROM is not, and the PIA's is writable and four
addresses long. -/
abbrev regionLegal (r : Region) : Prop :=
  r.lo ≤ r.hi ∧
  (r.owner = .ram → r.writable = true) ∧
  (r.owner = .pia → r.writable = true ∧ r.hi.toNat = r.lo.toNat + 3) ∧
  (r.owner ≠ .ram → r.owner ≠ .pia → r.writable = false)

/-- The map is a legal configuration (R30): every region legal, pairwise disjoint, exactly one owned by the PIA. A list with
overlapping ranges is not a machine (U17). -/
abbrev mapLegal (c : Config) : Prop :=
  (∀ r ∈ c.regions, regionLegal r) ∧
  c.regions.Pairwise regionsDisjoint ∧
  (c.regions.filter fun r => r.owner == .pia).length = 1

/-- The decoder's constants meet the constraints of R5 and R250. -/
abbrev cvsdLegal (c : Config) : Prop :=
  c.cvsdFMin < 0 ∧ 0 < c.cvsdFMax ∧ 0 ≤ c.cvsdFilterLeak ∧ c.cvsdFilterLeak < 1 ∧
    0 < c.cvsdStateLeak ∧ c.cvsdStateLeak ≤ 1

/-- A configuration the spec calls legal. -/
abbrev configLegal (c : Config) : Prop := mapLegal c ∧ cvsdLegal c

end Sys2Proof.Machine
end

