-- ==== Sys2Proof/Machine/State.lean ====
section
/-! DEFINITION. The state of the machine (10_state.md), plain data throughout, with the reasons a step can stop and the state
after reset. -/

namespace Sys2Proof.Machine

/-- What kind of access the bus refused (R220). -/
inductive AccessKind where
  | readUnmapped
  | writeUnmapped
  | writeToRom
deriving DecidableEq, Repr

/-- The fatal conditions of the block (R220 to R222); a step that raises one stops, and nothing is said of the state it
leaves (D16, U6). All three are safe: the spec itself stops the machine there. -/
inductive Fault where
  /-- `BusFault(addr, kind)` (R220): raised by `memRead8` and `memWrite8`, that is by any fetch, operand access, stack access
  or vector read, at an address in no region or on a write to a region that is not writable. Safe. -/
  | busFault (addr : Word) (kind : AccessKind)
  /-- `IllegalOpcode(op, at)` (R221): raised by the meaning of each of the 59 bytes of R72. Safe. -/
  | illegalOpcode (op : Byte) (loc : Word)
  /-- `UnimplementedOpcode(op, at)` (R222): raised by WAI alone, and only where the configuration has `WAI_MODE = fault`
  (R211). Safe. -/
  | unimplementedOpcode (op : Byte) (loc : Word)
deriving DecidableEq, Repr

/-- Refusals: what the model declines to run. No meaning of this model refuses. -/
inductive Refusal where
  /-- No meaning for the instruction yet: raised only by a refused arm of `exec`. Safe. -/
  | notModelled (mnemonic : String)
deriving DecidableEq, Repr

/-- The condition code register (R13): the six flags. Bits 7:6 of the byte are the constant 1 and are no state (D28); the
byte view is `CC.toByte` and `CC.ofByte`. -/
structure CC where
  h : Bool
  i : Bool
  n : Bool
  z : Bool
  v : Bool
  c : Bool
deriving DecidableEq, Repr

/-- The two ports of the PIA (R22). -/
inductive PortId where
  | a
  | b
deriving DecidableEq, Repr

/-- One port of the PIA (R22). Of the control register, bits 7:6 are the read-only interrupt flags (R236). -/
structure Port where
  outputRegister : Byte
  directionRegister : Byte
  controlRegister : Byte
  irqLatched : Bool
  inputLatch : Byte
  controlLine1 : Bool
  controlLine2 : Bool
deriving DecidableEq, Repr

/-- The CVSD decoder (R23): the last three bits fed, newest in bit 0, and the two real numbers. -/
structure Cvsd where
  shiftRegister : BitVec 3
  filter : Rat
  state : Rat
deriving DecidableEq, Repr

/-- The whole machine. The CPU registers are R10 to R14, the hidden CPU state R16 to R18, RAM R21, the PIA R22 and the
decoder R23. `config` holds the parameters of R5, which no step writes (log entry 1), and `draws` counts the free values
drawn so far (log entry 6): both are the model's own fields. -/
structure State where
  a : Byte
  b : Byte
  x : Word
  sp : Word
  pc : Word
  cc : CC
  nmiPending : Bool
  waiWait : Bool
  fault : Option Fault
  mem : Memory
  portA : Port
  portB : Port
  cvsd : Cvsd
  config : Config
  draws : Nat
deriving DecidableEq, Repr

/-- A port after reset (R22, R280). -/
def Port.reset : Port where
  outputRegister := 0
  directionRegister := 0
  controlRegister := 0
  irqLatched := false
  inputLatch := 0
  controlLine1 := false
  controlLine2 := false

/-- The decoder after reset (R23, R280). -/
def Cvsd.reset : Cvsd where
  shiftRegister := 0
  filter := 0
  state := 0

/-- The machine right after reset (R280, R282), in configuration TC (log entry 2). I is 1 and PC is the word at 0xFFFE, as
the spec says; A, B, X, SP and the flags H, N, Z, V, C, which it leaves unspecified (D6), are zero (DESIGN CHOICE, log
entry 3). `Laws.reset_is_construct` shows that this is what R280's procedure gives. -/
def State.reset : State where
  a := 0
  b := 0
  x := 0
  sp := 0
  pc := 0xF000
  cc := { h := false, i := true, n := false, z := false, v := false, c := false }
  nmiPending := false
  waiWait := false
  fault := none
  mem := []
  portA := Port.reset
  portB := Port.reset
  cvsd := Cvsd.reset
  config := Config.tc
  draws := 0

end Sys2Proof.Machine
end

