-- ==== Sys2Proof/Machine/Registers.lean ====
section
/-! DEFINITION. Register accessors and one update per field of the state. Every write of the machine goes through these. -/

namespace Sys2Proof.Machine

/-- Set accumulator A (R10). -/
def State.setA (s : State) (v : Byte) : State := { s with a := v }

/-- Set accumulator B (R10). -/
def State.setB (s : State) (v : Byte) : State := { s with b := v }

/-- Set the index register (R11). -/
def State.setX (s : State) (v : Word) : State := { s with x := v }

/-- Set the stack pointer (R12). -/
def State.setSp (s : State) (v : Word) : State := { s with sp := v }

/-- Set the program counter (R14). -/
def State.setPc (s : State) (v : Word) : State := { s with pc := v }

/-- Set the condition codes (R13). -/
def State.setCc (s : State) (v : CC) : State := { s with cc := v }

/-- Set the NMI latch (R16). -/
def State.setNmiPending (s : State) (v : Bool) : State := { s with nmiPending := v }

/-- Set the WAI wait bit (R17). -/
def State.setWaiWait (s : State) (v : Bool) : State := { s with waiWait := v }

/-- Set the recorded fault (R18). -/
def State.setFault (s : State) (v : Option Fault) : State := { s with fault := v }

/-- Set RAM (R21). -/
def State.setMem (s : State) (v : Memory) : State := { s with mem := v }

/-- Set port A of the PIA (R22). -/
def State.setPortA (s : State) (v : Port) : State := { s with portA := v }

/-- Set port B of the PIA (R22). -/
def State.setPortB (s : State) (v : Port) : State := { s with portB := v }

/-- Set the decoder (R23). -/
def State.setCvsd (s : State) (v : Cvsd) : State := { s with cvsd := v }

/-- Set the count of free values drawn. -/
def State.setDraws (s : State) (v : Nat) : State := { s with draws := v }

/-- The accumulator an instruction names (R10). -/
def State.acc (s : State) : Acc → Byte
  | .a => s.a
  | .b => s.b

/-- Set the accumulator an instruction names. -/
def State.setAcc (s : State) (r : Acc) (v : Byte) : State :=
  match r with
  | .a => s.setA v
  | .b => s.setB v

/-- A port of the PIA. -/
def State.port (s : State) : PortId → Port
  | .a => s.portA
  | .b => s.portB

/-- Set a port of the PIA. -/
def State.setPort (s : State) (p : PortId) (v : Port) : State :=
  match p with
  | .a => s.setPortA v
  | .b => s.setPortB v

end Sys2Proof.Machine
end

