-- ==== Sys2Proof/Machine/Flags.lean ====
section
/-! DEFINITION. The condition codes as a byte and every flag computation of the spec: addition, subtraction, N and Z, shifts
and rotates, decimal adjust, compare index, and the branch conditions. -/

namespace Sys2Proof.Machine

/-- The condition codes read as a byte (R13, D28): `0xC0 | flags`, H in bit 5 down to C in bit 0. -/
def CC.toByte (cc : CC) : Byte :=
  3#2 ++ BitVec.ofBool cc.h ++ BitVec.ofBool cc.i ++ BitVec.ofBool cc.n ++ BitVec.ofBool cc.z ++ BitVec.ofBool cc.v ++
    BitVec.ofBool cc.c

/-- The condition codes a byte write stores (R13, D28): bits 5:0; bits 7:6 of the byte are dropped. -/
def CC.ofByte (v : Byte) : CC where
  h := v.getLsbD 5
  i := v.getLsbD 4
  n := v.getLsbD 3
  z := v.getLsbD 2
  v := v.getLsbD 1
  c := v.getLsbD 0

/-- The condition codes with I replaced (R204, R205, R225). -/
def CC.setI (cc : CC) (i : Bool) : CC := { cc with i := i }

/-- The condition codes with C replaced (R200, R201). -/
def CC.setC (cc : CC) (c : Bool) : CC := { cc with c := c }

/-- The condition codes with V replaced (R202, R203). -/
def CC.setV (cc : CC) (v : Bool) : CC := { cc with v := v }

/-- The condition codes with Z replaced (R116, R117). -/
def CC.setZ (cc : CC) (z : Bool) : CC := { cc with z := z }

/-- `setNZ8(v)` of R102. -/
def CC.setNZ8 (cc : CC) (v : Byte) : CC := { cc with n := v.msb, z := decide (v = 0) }

/-- `setNZ16(v)` of R102. -/
def CC.setNZ16 (cc : CC) (v : Word) : CC := { cc with n := v.msb, z := decide (v = 0) }

/-- The flags of a load, store, transfer or logic instruction: N and Z from the byte, V cleared (R170, R171, R176, R190). -/
def CC.logic8 (cc : CC) (v : Byte) : CC := (cc.setNZ8 v).setV false

/-- The flags of a 16-bit load or store: N and Z from the word, V cleared (R172, R174). -/
def CC.logic16 (cc : CC) (v : Word) : CC := (cc.setNZ16 v).setV false

/-- An 8-bit result with the flags it leaves. -/
structure Alu where
  value : Byte
  cc : CC
deriving DecidableEq, Repr

/-- The sum of R100 over the integers, 0 to 511. -/
def sum8 (a b : Byte) (cin : Bool) : Nat := a.toNat + b.toNat + cin.toNat

/-- `add8(a, b, cin)` of R100, on the flags `cc`: H, N, Z, V and C are written, I is kept. -/
def add8 (a b : Byte) (cin : Bool) (cc : CC) : Alu :=
  let s := sum8 a b cin
  let r := BitVec.ofNat 8 s
  { value := r
    cc := { h := decide (16 ≤ a.toNat % 16 + b.toNat % 16 + cin.toNat)
            i := cc.i
            n := r.msb
            z := decide (r = 0)
            v := (a.msb == b.msb) && (r.msb != a.msb)
            c := decide (256 ≤ s) } }

/-- The difference of R101 over the integers, -256 to 255. -/
def diff8 (a b : Byte) (bin : Bool) : Int := (a.toNat : Int) - (b.toNat : Int) - (bin.toNat : Int)

/-- `sub8(a, b, bin)` of R101, on the flags `cc`: N, Z, V and C are written, H and I are kept (D5). -/
def sub8 (a b : Byte) (bin : Bool) (cc : CC) : Alu :=
  let d := diff8 a b bin
  let r := BitVec.ofInt 8 d
  { value := r
    cc := { h := cc.h
            i := cc.i
            n := r.msb
            z := decide (r = 0)
            v := (a.msb != b.msb) && (r.msb == b.msb)
            c := decide (d < 0) } }

/-- INC (R112): N, Z and V are written, C is kept. -/
def inc8 (v : Byte) (cc : CC) : Alu :=
  { value := v + 1, cc := (cc.setNZ8 (v + 1)).setV (decide (v = 0x7F)) }

/-- DEC (R113): N, Z and V are written, C is kept. -/
def dec8 (v : Byte) (cc : CC) : Alu :=
  { value := v - 1, cc := (cc.setNZ8 (v - 1)).setV (decide (v = 0x80)) }

/-- NEG (R111): `sub8(0, v, 0)`. -/
def neg8 (v : Byte) (cc : CC) : Alu := sub8 0 v false cc

/-- COM (R194): the one's complement; N and Z are written, V is cleared, C is set. -/
def com8 (v : Byte) (cc : CC) : Alu := { value := ~~~v, cc := (cc.logic8 (~~~v)).setC true }

/-- TST (R195): the flags of `v - 0`; N and Z are written, V and C are cleared. -/
def tstFlags (v : Byte) (cc : CC) : CC := (cc.logic8 v).setC false

/-- CLR (R196): N = 0, Z = 1, V = 0, C = 0. -/
def clrFlags (cc : CC) : CC := { cc with n := false, z := true, v := false, c := false }

/-- The frame of the shifts and rotates (R130): C from the bit shifted out, N and Z from the result, V = N xor C. -/
def shiftResult (res : Byte) (cNew : Bool) (cc : CC) : Alu :=
  { value := res, cc := ((cc.setC cNew).setNZ8 res).setV (res.msb ^^ cNew) }

/-- ASL (R131). -/
def asl8 (v : Byte) (cc : CC) : Alu := shiftResult (v <<< 1) (v.getLsbD 7) cc

/-- ASR (R132): bit 7 is kept. -/
def asr8 (v : Byte) (cc : CC) : Alu := shiftResult ((v >>> 1) ||| (v &&& 0x80)) (v.getLsbD 0) cc

/-- LSR (R133). -/
def lsr8 (v : Byte) (cc : CC) : Alu := shiftResult (v >>> 1) (v.getLsbD 0) cc

/-- ROL (R134): the old C enters at bit 0. -/
def rol8 (v : Byte) (cc : CC) : Alu :=
  shiftResult ((v <<< 1) ||| (BitVec.ofBool cc.c).setWidth 8) (v.getLsbD 7) cc

/-- ROR (R135): the old C enters at bit 7. -/
def ror8 (v : Byte) (cc : CC) : Alu :=
  shiftResult ((v >>> 1) ||| ((BitVec.ofBool cc.c).setWidth 8 <<< 7)) (v.getLsbD 0) cc

/-- The correction DAA adds (R114), from the two digits of A and the flags H and C. -/
def daaCorrection (a : Byte) (h c : Bool) : Nat :=
  let lsn := a.toNat % 16
  let msn := a.toNat / 16
  (if lsn > 9 ∨ h = true then 0x06 else 0) +
    (if msn > 9 ∨ c = true ∨ (msn > 8 ∧ lsn > 9) then 0x60 else 0)

/-- DAA (R114): N and Z are written, C is set by a carry and never cleared; V is the value `v` the caller supplies, since the
spec leaves it unspecified. -/
def daa8 (a : Byte) (v : Bool) (cc : CC) : Alu :=
  let t := a.toNat + daaCorrection a cc.h cc.c
  let r := BitVec.ofNat 8 t
  { value := r, cc := ((cc.setNZ8 r).setC (cc.c || decide (256 ≤ t))).setV v }

/-- CPX (R115): Z from all sixteen bits, N and V from the high bytes alone, C kept. -/
def cpxFlags (x m : Word) (cc : CC) : CC :=
  let rh := byteHi x - byteHi m
  let rl := byteLo x - byteLo m
  { cc with
    n := rh.msb
    z := decide (rh = 0) && decide (rl = 0)
    v := ((byteHi x).msb != (byteHi m).msb) && (rh.msb == (byteHi m).msb) }

/-! The two-operand group: the result and the flags of an accumulator `a` and an operand `m`. -/

/-- ADD (R103). -/
def addOp (a m : Byte) (cc : CC) : Alu := add8 a m false cc

/-- ADC (R104). -/
def adcOp (a m : Byte) (cc : CC) : Alu := add8 a m cc.c cc

/-- SUB (R106). -/
def subOp (a m : Byte) (cc : CC) : Alu := sub8 a m false cc

/-- SBC (R107). -/
def sbcOp (a m : Byte) (cc : CC) : Alu := sub8 a m cc.c cc

/-- The flags of CMP (R109): those of SUB, the result dropped. -/
def cmpFlags (a m : Byte) (cc : CC) : CC := (sub8 a m false cc).cc

/-- AND (R190). -/
def andOp (a m : Byte) (cc : CC) : Alu := { value := a &&& m, cc := cc.logic8 (a &&& m) }

/-- ORA (R191). -/
def oraOp (a m : Byte) (cc : CC) : Alu := { value := a ||| m, cc := cc.logic8 (a ||| m) }

/-- EOR (R192). -/
def eorOp (a m : Byte) (cc : CC) : Alu := { value := a ^^^ m, cc := cc.logic8 (a ^^^ m) }

/-- The flags of BIT (R193): those of AND, the result dropped. -/
def bitFlags (a m : Byte) (cc : CC) : CC := cc.logic8 (a &&& m)

/-- LDA (R170): the operand itself. -/
def ldaOp (_a m : Byte) (cc : CC) : Alu := { value := m, cc := cc.logic8 m }

/-- The branch conditions of R141. -/
def condHolds : Cond → CC → Bool
  | .always, _ => true
  | .hi, cc => !cc.c && !cc.z
  | .ls, cc => cc.c || cc.z
  | .cc, cc => !cc.c
  | .cs, cc => cc.c
  | .ne, cc => !cc.z
  | .eq, cc => cc.z
  | .vc, cc => !cc.v
  | .vs, cc => cc.v
  | .pl, cc => !cc.n
  | .mi, cc => cc.n
  | .ge, cc => !(cc.n ^^ cc.v)
  | .lt, cc => cc.n ^^ cc.v
  | .gt, cc => !cc.z && !(cc.n ^^ cc.v)
  | .le, cc => cc.z || (cc.n ^^ cc.v)

/-- `sext_16(b)` of R7. -/
def sext16 (b : Byte) : Word := b.signExtend 16

/-- `zext_16(b)` of R7. -/
def zext16 (b : Byte) : Word := b.setWidth 16

end Sys2Proof.Machine
end

