-- ==== Sys2Proof/Machine/Cvsd.lean ====
section
/-! DEFINITION. The CVSD decoder (R250 to R253) and the rounding of its number format (R252). -/

namespace Sys2Proof.Machine

/-- A power of two with an integer exponent. -/
def pow2 (e : Int) : Rat :=
  match e with
  | .ofNat n => ((2 ^ n : Nat) : Rat)
  | .negSucc n => 1 / ((2 ^ (n + 1) : Nat) : Rat)

/-- The exponent of the leading bit of a positive rational: the `e` with `2 ^ e <= q < 2 ^ (e + 1)`. -/
def leadingExp (q : Rat) : Int :=
  let e : Int := (Nat.log2 q.num.natAbs : Int) - (Nat.log2 q.den : Int)
  if pow2 e ≤ q then e else e - 1

/-- Whether a magnitude of `n` units and `r / den` of a unit more is rounded up to `n + 1` units; `negative` says the number has
that magnitude below zero. -/
def roundsUp (mode : Rounding) (negative : Bool) (n r den : Nat) : Bool :=
  match mode with
  | .nearestEven => decide (den < 2 * r) || (decide (2 * r = den) && decide (n % 2 = 1))
  | .nearestAway => decide (den ≤ 2 * r)
  | .towardZero => false
  | .towardPositive => !negative && decide (r ≠ 0)
  | .towardNegative => negative && decide (r ≠ 0)

/-- A magnitude in units of the last place, rounded to a whole number of them. -/
def roundUnits (mode : Rounding) (negative : Bool) (q : Rat) : Nat :=
  let n := q.num.natAbs / q.den
  if roundsUp mode negative n (q.num.natAbs % q.den) q.den then n + 1 else n

/-- A positive magnitude rounded to `p` significand bits with no unit in the last place below `2 ^ minExp`. -/
def roundMagnitude (p : Nat) (minExp : Int) (mode : Rounding) (negative : Bool) (q : Rat) : Rat :=
  let e := max (leadingExp q - (p : Int) + 1) minExp
  (roundUnits mode negative (q / pow2 e) : Rat) * pow2 e

/-- `CVSD_FLOAT` applied to the exact result of one operation (R252, log entry 8). -/
def roundTo (f : NumFormat) (q : Rat) : Rat :=
  match f with
  | .exact => q
  | .binary p e mode =>
    if q = 0 then 0 else if 0 < q then roundMagnitude p e mode false q else -(roundMagnitude p e mode true (-q))
  | .uninterpreted k => Config.freeRound k q

/-- `min(1, max(-1, q))` of R250. -/
def clampUnit (q : Rat) : Rat := if q < -1 then -1 else if 1 < q then 1 else q

/-- The filter moved halfway towards a bound (R250). -/
def nudge (f : NumFormat) (filter bound : Rat) : Rat :=
  roundTo f (filter + roundTo f (roundTo f (bound - filter) / 2))

/-- The filter after the run of three equal bits, if there is one, has moved it (R250). -/
def filterNudged (c : Config) (shift : BitVec 3) (filter : Rat) : Rat :=
  if shift = 7 then nudge c.cvsdFloat filter c.cvsdFMax
  else if shift = 0 then nudge c.cvsdFloat filter c.cvsdFMin
  else filter

/-- `cvsd.add_bit(bit)` of R250, its six statements in order. -/
def cvsdAddBit (c : Config) (bit : Bool) (d : Cvsd) : Cvsd :=
  let shift := (d.shiftRegister <<< 1) ||| (BitVec.ofBool bit).setWidth 3
  let filter := filterNudged c shift d.filter
  let state := roundTo c.cvsdFloat (d.state + filter)
  { shiftRegister := shift
    filter := roundTo c.cvsdFloat (filter * c.cvsdFilterLeak)
    state := roundTo c.cvsdFloat (clampUnit state * c.cvsdStateLeak) }

end Sys2Proof.Machine
end

