-- ==== Sys2Proof/Machine/Pia.lean ====
section
/-! DEFINITION. The PIA behind the peripheral window (R235 to R246), and the clocking of the decoder from its control lines
(R243). -/

namespace Sys2Proof.Machine

/-- The port of a register index (R235): 0 and 1 are port A, 2 and 3 port B. -/
def piaPort (idx : Nat) : PortId := if idx < 2 then .a else .b

/-- The value read from the data register (R237): driven pins read the output, the others the input latch. -/
def portData (q : Port) : Byte :=
  (q.outputRegister &&& q.directionRegister) ||| (q.inputLatch &&& ~~~q.directionRegister)

/-- Bit 2 of the control register (R236): whether the data register, not the direction register, is visible. -/
def dataSelected (q : Port) : Bool := q.controlRegister.getLsbD 2

/-- The side effect of a data-register read (R240): both interrupt flags and the latch fall. -/
def portAcknowledge (q : Port) : Port :=
  { q with controlRegister := q.controlRegister &&& 0x3F, irqLatched := false }

/-- `pia_read(idx)` of R238: the value and the state after the read. -/
def piaRead (idx : Nat) (s : State) : Byte × State :=
  let p := piaPort idx
  let q := s.port p
  if idx % 2 = 1 then (q.controlRegister, s)
  else if dataSelected q then (portData q, s.setPort p (portAcknowledge q))
  else (q.directionRegister, s)

/-- The port after a control-register write (R242): bits 5:0 are stored, 7:6 kept, and C2 follows bit 3 when bits 5:4 are both
1. -/
def portControl (q : Port) (v : Byte) : Port :=
  let cr := (q.controlRegister &&& 0xC0) ||| (v &&& 0x3F)
  { q with
    controlRegister := cr
    controlLine2 := if cr.getLsbD 5 && cr.getLsbD 4 then cr.getLsbD 3 else q.controlLine2 }

/-- `write_control(p, v)` of R242: a rising edge of port B's C2 feeds the level of port A's C2 to the decoder (R243). -/
def writeControl (p : PortId) (v : Byte) (s : State) : State :=
  let q := s.port p
  let t := s.setPort p (portControl q v)
  if p = .b ∧ q.controlLine2 = false ∧ t.portB.controlLine2 = true then
    t.setCvsd (cvsdAddBit t.config t.portA.controlLine2 t.cvsd)
  else t

/-- `pia_write(idx, v)` of R239: the control register at an odd index; at an even one the direction or the output register
(R241). -/
def piaWrite (idx : Nat) (v : Byte) (s : State) : State :=
  let p := piaPort idx
  let q := s.port p
  if idx % 2 = 1 then writeControl p v s
  else if dataSelected q then s.setPort p { q with outputRegister := v }
  else s.setPort p { q with directionRegister := v }

/-- `irq(p)` of R244: a pure query of the latch. -/
def irq (p : PortId) (s : State) : Bool := (s.port p).irqLatched

end Sys2Proof.Machine
end

