-- ==== Sys2Proof/Machine/Ops.lean ====
section
/-! DEFINITION. The operations of the machine over memory and registers: bus access (R34 to R38), fetch (R62), the stack
(R40 to R43), taking an interrupt (R224, R225), returning from one (R210), and the two fatal opcode conditions. -/

namespace Sys2Proof.Machine

/-- What an operation gives: a value and the state after it, or the fault that ends the step (R227: the first access that
faults ends it). -/
inductive Res (α : Type) where
  | ok (v : α) (s : State)
  | fault (f : Fault)
deriving DecidableEq

/-- One operation after another. -/
def Res.bind {α β : Type} (r : Res α) (k : α → State → Res β) : Res β :=
  match r with
  | .ok v s => k v s
  | .fault f => .fault f

/-- The outcome of a step that ends with this operation. -/
def Res.outcome (r : Res Unit) : Host.Outcome State Fault Refusal :=
  match r with
  | .ok _ s => .next s
  | .fault f => .fault f

/-- `MemRead(addr, 1)` (R34): by the owner of the region, R31, R32 or R33; a fault at an address in no region. -/
def memRead8 (addr : Word) (s : State) : Res Byte :=
  match resolve s.config addr with
  | none => .fault (.busFault addr .readUnmapped)
  | some r =>
    match r.owner with
    | .ram => .ok (s.mem.read addr.toNat) s
    | .rom k => .ok (romByte s.config k r addr) s
    | .pia => .ok (piaRead (addr - r.lo).toNat s).1 (piaRead (addr - r.lo).toNat s).2

/-- `MemWrite(addr, 1, v)` (R35): a fault at an address in no region, and in a region that is not writable or is a ROM
(R32). -/
def memWrite8 (addr : Word) (v : Byte) (s : State) : Res Unit :=
  match resolve s.config addr with
  | none => .fault (.busFault addr .writeUnmapped)
  | some r =>
    if r.writable then
      match r.owner with
      | .ram => .ok () (s.setMem (s.mem.write addr.toNat v))
      | .rom _ => .fault (.busFault addr .writeToRom)
      | .pia => .ok () (piaWrite (addr - r.lo).toNat v s)
    else .fault (.busFault addr .writeToRom)

/-- `MemRead(addr, 2)` (R36): the byte at `addr`, then the byte at `addr + 1` modulo 2^16; big-endian. -/
def memRead16 (addr : Word) (s : State) : Res Word :=
  (memRead8 addr s).bind fun hi s1 => (memRead8 (addr + 1) s1).bind fun lo s2 => .ok (joinBytes hi lo) s2

/-- `MemWrite(addr, 2, v)` (R37): the high byte at `addr`, then the low byte at `addr + 1` modulo 2^16. -/
def memWrite16 (addr : Word) (v : Word) (s : State) : Res Unit :=
  (memWrite8 addr (byteHi v) s).bind fun _ s1 => memWrite8 (addr + 1) (byteLo v) s1

/-- `Fetch8()` (R62): the byte at the program counter, which then advances by one modulo 2^16 (R14). -/
def fetch8 (s : State) : Res Byte := (memRead8 s.pc s).bind fun v s1 => .ok v (s1.setPc (s1.pc + 1))

/-- `Push8(v)` (R40): the byte is written at SP, then SP is decremented. -/
def push8 (v : Byte) (s : State) : Res Unit :=
  (memWrite8 s.sp v s).bind fun _ s1 => .ok () (s1.setSp (s1.sp - 1))

/-- `Pull8()` (R41): SP is incremented, then the byte is read at SP. -/
def pull8 (s : State) : Res Byte := memRead8 (s.sp + 1) (s.setSp (s.sp + 1))

/-- `Push16(v)` (R42): the low byte, then the high byte. -/
def push16 (v : Word) (s : State) : Res Unit := (push8 (byteLo v) s).bind fun _ s1 => push8 (byteHi v) s1

/-- `Pull16()` (R43): the high byte, then the low byte. -/
def pull16 (s : State) : Res Word :=
  (pull8 s).bind fun hi s1 => (pull8 s1).bind fun lo s2 => .ok (joinBytes hi lo) s2

/-- `StackAll()` (R224): PC, X, A, B and CC, so that the frame reads CC, B, A, X, PC from its lowest address up. -/
def stackAll (s : State) : Res Unit :=
  (push16 s.pc s).bind fun _ s1 =>
  (push16 s1.x s1).bind fun _ s2 =>
  (push8 s2.a s2).bind fun _ s3 =>
  (push8 s3.b s3).bind fun _ s4 => push8 s4.cc.toByte s4

/-- The second half of an interrupt entry (R225): I is set and PC loaded from the vector. -/
def vectorTo (vector : Word) (s : State) : Res Unit :=
  (memRead16 vector (s.setCc (s.cc.setI true))).bind fun target s1 => .ok () (s1.setPc target)

/-- `Enter(vector, stack)` (R225): taking an interrupt. Every interrupt of the machine, SWI among them, is taken here. -/
def enter (vector : Word) (stack : Bool) (s : State) : Res Unit :=
  if stack then (stackAll s).bind fun _ s1 => vectorTo vector s1 else vectorTo vector s

/-- The return from an interrupt (R210, R229): CC, B, A, X and PC are pulled, in that order. -/
def returnFromInterrupt (s : State) : Res Unit :=
  (pull8 s).bind fun cc s1 =>
  (pull8 (s1.setCc (CC.ofByte cc))).bind fun b s2 =>
  (pull8 (s2.setB b)).bind fun a s3 =>
  (pull16 (s3.setA a)).bind fun x s4 =>
  (pull16 (s4.setX x)).bind fun pc s5 => .ok () (s5.setPc pc)

/-! The four vectors (R48, R223). -/

def irqVector : Word := 0xFFF8
def swiVector : Word := 0xFFFA
def nmiVector : Word := 0xFFFC
def resetVector : Word := 0xFFFE

/-- The address of the opcode of a one-byte instruction: PC has advanced past it (R14). -/
def opcodeAddress (s : State) : Word := s.pc - 1

/-- `raise IllegalOpcode(op, at)` (R221), `at` being the address of the opcode. -/
def illegalOpcode (op : Byte) (s : State) : Res Unit := .fault (.illegalOpcode op (opcodeAddress s))

/-- The byte of RAM or ROM at an address, read from outside the machine without side effect; none at any other address
(R74, R287). -/
def peek (addr : Word) (s : State) : Option Byte :=
  match resolve s.config addr with
  | none => none
  | some r =>
    match r.owner with
    | .ram => some (s.mem.read addr.toNat)
    | .rom k => some (romByte s.config k r addr)
    | .pia => none

/-- A list with its `k`-th entry replaced; shorter lists are filled up with empty images. -/
def setImage (k : Nat) (m : Memory) (l : List Memory) : List Memory :=
  match k, l with
  | 0, [] => [m]
  | 0, _ :: rest => m :: rest
  | k + 1, [] => [] :: setImage k m []
  | k + 1, i :: rest => i :: setImage k m rest

/-- A byte of a program put at an address from outside the machine, before a run: into RAM, or into the image of the ROM that
answers there (log entry 17). At any other address nothing is put. -/
def poke (addr : Word) (v : Byte) (s : State) : State :=
  match resolve s.config addr with
  | none => s
  | some r =>
    match r.owner with
    | .ram => s.setMem (s.mem.write addr.toNat v)
    | .rom k =>
      { s with config := { s.config with
          romImages := setImage k ((romImage s.config k).write (r.baseOffset + (addr - r.lo).toNat) v) s.config.romImages } }
    | .pia => s

end Sys2Proof.Machine
end

