-- ==== Sys2Proof/Machine/Operands.lean ====
section
/-! DEFINITION. Operand forms (R63 to R69) and the shapes instructions have over them. -/

namespace Sys2Proof.Machine

/-- The effective address of a memory operand (R65 to R67): direct is zero-extended, indexed is X plus the unsigned offset
modulo 2^16, extended is the word itself. -/
def effAddr (m : Mem) (s : State) : Word :=
  match m with
  | .dir addr => zext16 addr
  | .idx off => s.x + zext16 off
  | .ext addr => addr

/-- The 8-bit operand `M` of R69. -/
def operand8 (src : Src8) (s : State) : Res Byte :=
  match src with
  | .imm v => .ok v s
  | .mem m => memRead8 (effAddr m s) s

/-- The 16-bit operand `M16` of R69. -/
def operand16 (src : Src16) (s : State) : Res Word :=
  match src with
  | .imm v => .ok v s
  | .mem m => memRead16 (effAddr m s) s

/-- An operation on an accumulator and an 8-bit operand whose result goes to the accumulator (R103, R106, R190). -/
def accOperand (f : Byte → Byte → CC → Alu) (r : Acc) (src : Src8) (s : State) : Res Unit :=
  (operand8 src s).bind fun m s1 =>
    .ok () ((s1.setAcc r (f (s1.acc r) m s1.cc).value).setCc (f (s1.acc r) m s1.cc).cc)

/-- An operation on an accumulator and an 8-bit operand that leaves only flags (R109, R193). -/
def accTest (f : Byte → Byte → CC → CC) (r : Acc) (src : Src8) (s : State) : Res Unit :=
  (operand8 src s).bind fun m s1 => .ok () (s1.setCc (f (s1.acc r) m s1.cc))

/-- A one-operand operation on an accumulator (R130, R111 to R113, R194). -/
def accModify (f : Byte → CC → Alu) (r : Acc) (s : State) : Res Unit :=
  .ok () ((s.setAcc r (f (s.acc r) s.cc).value).setCc (f (s.acc r) s.cc).cc)

/-- A read-modify-write of memory (R38, R130): one read at the effective address, one write of the result there. -/
def memModify (f : Byte → CC → Alu) (ea : IdxExt) (s : State) : Res Unit :=
  (memRead8 (effAddr ea.toMem s) s).bind fun v s1 =>
  (memWrite8 (effAddr ea.toMem s) (f v s1.cc).value s1).bind fun _ s2 => .ok () (s2.setCc (f v s1.cc).cc)

/-- A relative branch (R140): PC is past the offset byte already, and the signed offset is added to it if the condition
holds. -/
def branch (cond : Cond) (rel : Byte) (s : State) : Res Unit :=
  if condHolds cond s.cc then .ok () (s.setPc (s.pc + sext16 rel)) else .ok () s

/-- A subroutine call (R157, R159): the return address, which PC holds, is pushed, then control goes to the target. -/
def call (target : Word) (s : State) : Res Unit := (push16 s.pc s).bind fun _ s1 => .ok () (s1.setPc target)

end Sys2Proof.Machine
end

