-- ==== Sys2Proof/Machine/Arithmetic.lean ====
section
/-! DEFINITION. Arithmetic (40_arithmetic.md): addition, subtraction, comparison, negate, increment, decrement, decimal adjust, compare index. A meaning is run with PC already past the
instruction's bytes (R14). -/

namespace Sys2Proof.Machine

/-- ADDA (R103; 0x8B, 0x9B, 0xAB, 0xBB). A plus the operand goes to A; H, N, Z, V, C are written. -/
def execAdda (src : Src8) (s : State) : Host.Outcome State Fault Refusal :=
  (accOperand addOp .a src s).outcome

/-- ADDB (R103; 0xCB, 0xDB, 0xEB, 0xFB). B plus the operand goes to B; H, N, Z, V, C are written. -/
def execAddb (src : Src8) (s : State) : Host.Outcome State Fault Refusal :=
  (accOperand addOp .b src s).outcome

/-- ADCA (R104; 0x89, 0x99, 0xA9, 0xB9). A plus the operand plus C goes to A; H, N, Z, V, C are written. -/
def execAdca (src : Src8) (s : State) : Host.Outcome State Fault Refusal :=
  (accOperand adcOp .a src s).outcome

/-- ADCB (R104; 0xC9, 0xD9, 0xE9, 0xF9). B plus the operand plus C goes to B; H, N, Z, V, C are written. -/
def execAdcb (src : Src8) (s : State) : Host.Outcome State Fault Refusal :=
  (accOperand adcOp .b src s).outcome

/-- ABA (R105; 0x1B). A plus B goes to A; H, N, Z, V, C are written. -/
def execAba (s : State) : Host.Outcome State Fault Refusal :=
  .next ((s.setA (addOp s.a s.b s.cc).value).setCc (addOp s.a s.b s.cc).cc)

/-- SUBA (R106; 0x80, 0x90, 0xA0, 0xB0). A minus the operand goes to A; N, Z, V, C are written. -/
def execSuba (src : Src8) (s : State) : Host.Outcome State Fault Refusal :=
  (accOperand subOp .a src s).outcome

/-- SUBB (R106; 0xC0, 0xD0, 0xE0, 0xF0). B minus the operand goes to B; N, Z, V, C are written. -/
def execSubb (src : Src8) (s : State) : Host.Outcome State Fault Refusal :=
  (accOperand subOp .b src s).outcome

/-- SBCA (R107; 0x82, 0x92, 0xA2, 0xB2). A minus the operand minus C goes to A; N, Z, V, C are written. -/
def execSbca (src : Src8) (s : State) : Host.Outcome State Fault Refusal :=
  (accOperand sbcOp .a src s).outcome

/-- SBCB (R107; 0xC2, 0xD2, 0xE2, 0xF2). B minus the operand minus C goes to B; N, Z, V, C are written. -/
def execSbcb (src : Src8) (s : State) : Host.Outcome State Fault Refusal :=
  (accOperand sbcOp .b src s).outcome

/-- SBA (R108; 0x10). A minus B goes to A; N, Z, V, C are written. -/
def execSba (s : State) : Host.Outcome State Fault Refusal :=
  .next ((s.setA (subOp s.a s.b s.cc).value).setCc (subOp s.a s.b s.cc).cc)

/-- CMPA (R109; 0x81, 0x91, 0xA1, 0xB1). The flags of A minus the operand; A is kept. -/
def execCmpa (src : Src8) (s : State) : Host.Outcome State Fault Refusal :=
  (accTest cmpFlags .a src s).outcome

/-- CMPB (R109; 0xC1, 0xD1, 0xE1, 0xF1). The flags of B minus the operand; B is kept. -/
def execCmpb (src : Src8) (s : State) : Host.Outcome State Fault Refusal :=
  (accTest cmpFlags .b src s).outcome

/-- CBA (R110; 0x11). The flags of A minus B; A and B are kept. -/
def execCba (s : State) : Host.Outcome State Fault Refusal :=
  .next (s.setCc (cmpFlags s.a s.b s.cc))

/-- NEG (R111; 0x60, 0x70). The two's complement of the byte at the effective address. -/
def execNeg (ea : IdxExt) (s : State) : Host.Outcome State Fault Refusal :=
  (memModify neg8 ea s).outcome

/-- NEGA (R111; 0x40). The two's complement of A. -/
def execNega (s : State) : Host.Outcome State Fault Refusal :=
  (accModify neg8 .a s).outcome

/-- NEGB (R111; 0x50). The two's complement of B. -/
def execNegb (s : State) : Host.Outcome State Fault Refusal :=
  (accModify neg8 .b s).outcome

/-- INC (R112; 0x6C, 0x7C). The increment of the byte at the effective address. -/
def execInc (ea : IdxExt) (s : State) : Host.Outcome State Fault Refusal :=
  (memModify inc8 ea s).outcome

/-- INCA (R112; 0x4C). The increment of A. -/
def execInca (s : State) : Host.Outcome State Fault Refusal :=
  (accModify inc8 .a s).outcome

/-- INCB (R112; 0x5C). The increment of B. -/
def execIncb (s : State) : Host.Outcome State Fault Refusal :=
  (accModify inc8 .b s).outcome

/-- DEC (R113; 0x6A, 0x7A). The decrement of the byte at the effective address. -/
def execDec (ea : IdxExt) (s : State) : Host.Outcome State Fault Refusal :=
  (memModify dec8 ea s).outcome

/-- DECA (R113; 0x4A). The decrement of A. -/
def execDeca (s : State) : Host.Outcome State Fault Refusal :=
  (accModify dec8 .a s).outcome

/-- DECB (R113; 0x5A). The decrement of B. -/
def execDecb (s : State) : Host.Outcome State Fault Refusal :=
  (accModify dec8 .b s).outcome

/-- INX (R116; 0x08). X plus 1 modulo 2^16; only Z is written. -/
def execInx (s : State) : Host.Outcome State Fault Refusal :=
  .next ((s.setX (s.x + 1)).setCc (s.cc.setZ (decide (s.x + 1 = 0))))

/-- DEX (R117; 0x09). X minus 1 modulo 2^16; only Z is written. -/
def execDex (s : State) : Host.Outcome State Fault Refusal :=
  .next ((s.setX (s.x - 1)).setCc (s.cc.setZ (decide (s.x - 1 = 0))))

/-- INS (R118; 0x31). SP plus 1 modulo 2^16; no flag is written. -/
def execIns (s : State) : Host.Outcome State Fault Refusal :=
  .next (s.setSp (s.sp + 1))

/-- DES (R119; 0x34). SP minus 1 modulo 2^16; no flag is written. -/
def execDes (s : State) : Host.Outcome State Fault Refusal :=
  .next (s.setSp (s.sp - 1))

/-- DAA (R114; 0x19). A is decimal-adjusted; V is a free value, drawn anew (U3, log entry 6). -/
def execDaa (s : State) : Host.Outcome State Fault Refusal :=
  let r := daa8 s.a (Config.freeBit s.draws) s.cc
  .next (((s.setA r.value).setCc r.cc).setDraws (s.draws + 1))

/-- CPX (R115; 0x8C, 0x9C, 0xAC, 0xBC). The flags of X compared with the operand; C is kept. -/
def execCpx (src : Src16) (s : State) : Host.Outcome State Fault Refusal :=
  ((operand16 src s).bind fun m s1 => .ok () (s1.setCc (cpxFlags s1.x m s1.cc))).outcome

end Sys2Proof.Machine
end

