-- ==== Sys2Proof/Machine/Branch.lean ====
section
/-! DEFINITION. Branches, jumps, subroutine call and return (42_branch_jump.md). A meaning is run with PC already past the
instruction's bytes (R14). -/

namespace Sys2Proof.Machine

/-- BRA (R142; 0x20). Branch on the condition `always` of R141. -/
def execBra (rel : Byte) (s : State) : Host.Outcome State Fault Refusal :=
  (branch .always rel s).outcome

/-- BHI (R143; 0x22). Branch on the condition `hi` of R141. -/
def execBhi (rel : Byte) (s : State) : Host.Outcome State Fault Refusal :=
  (branch .hi rel s).outcome

/-- BLS (R144; 0x23). Branch on the condition `ls` of R141. -/
def execBls (rel : Byte) (s : State) : Host.Outcome State Fault Refusal :=
  (branch .ls rel s).outcome

/-- BCC (R145; 0x24). Branch on the condition `cc` of R141. -/
def execBcc (rel : Byte) (s : State) : Host.Outcome State Fault Refusal :=
  (branch .cc rel s).outcome

/-- BCS (R146; 0x25). Branch on the condition `cs` of R141. -/
def execBcs (rel : Byte) (s : State) : Host.Outcome State Fault Refusal :=
  (branch .cs rel s).outcome

/-- BNE (R147; 0x26). Branch on the condition `ne` of R141. -/
def execBne (rel : Byte) (s : State) : Host.Outcome State Fault Refusal :=
  (branch .ne rel s).outcome

/-- BEQ (R148; 0x27). Branch on the condition `eq` of R141. -/
def execBeq (rel : Byte) (s : State) : Host.Outcome State Fault Refusal :=
  (branch .eq rel s).outcome

/-- BVC (R149; 0x28). Branch on the condition `vc` of R141. -/
def execBvc (rel : Byte) (s : State) : Host.Outcome State Fault Refusal :=
  (branch .vc rel s).outcome

/-- BVS (R150; 0x29). Branch on the condition `vs` of R141. -/
def execBvs (rel : Byte) (s : State) : Host.Outcome State Fault Refusal :=
  (branch .vs rel s).outcome

/-- BPL (R151; 0x2A). Branch on the condition `pl` of R141. -/
def execBpl (rel : Byte) (s : State) : Host.Outcome State Fault Refusal :=
  (branch .pl rel s).outcome

/-- BMI (R152; 0x2B). Branch on the condition `mi` of R141. -/
def execBmi (rel : Byte) (s : State) : Host.Outcome State Fault Refusal :=
  (branch .mi rel s).outcome

/-- BGE (R153; 0x2C). Branch on the condition `ge` of R141. -/
def execBge (rel : Byte) (s : State) : Host.Outcome State Fault Refusal :=
  (branch .ge rel s).outcome

/-- BLT (R154; 0x2D). Branch on the condition `lt` of R141. -/
def execBlt (rel : Byte) (s : State) : Host.Outcome State Fault Refusal :=
  (branch .lt rel s).outcome

/-- BGT (R155; 0x2E). Branch on the condition `gt` of R141. -/
def execBgt (rel : Byte) (s : State) : Host.Outcome State Fault Refusal :=
  (branch .gt rel s).outcome

/-- BLE (R156; 0x2F). Branch on the condition `le` of R141. -/
def execBle (rel : Byte) (s : State) : Host.Outcome State Fault Refusal :=
  (branch .le rel s).outcome

/-- BSR (R157; 0x8D). The return address is pushed, then the signed offset is added to PC. -/
def execBsr (rel : Byte) (s : State) : Host.Outcome State Fault Refusal :=
  (call (s.pc + sext16 rel) s).outcome

/-- JMP (R158; 0x6E, 0x7E). PC becomes the effective address; the operand is not read. -/
def execJmp (ea : IdxExt) (s : State) : Host.Outcome State Fault Refusal :=
  .next (s.setPc (effAddr ea.toMem s))

/-- JSR (R159; 0xAD, 0xBD). The return address is pushed, then PC becomes the effective address. -/
def execJsr (ea : IdxExt) (s : State) : Host.Outcome State Fault Refusal :=
  (call (effAddr ea.toMem s) s).outcome

/-- RTS (R160; 0x39). PC is pulled. -/
def execRts (s : State) : Host.Outcome State Fault Refusal :=
  ((pull16 s).bind fun target s1 => .ok () (s1.setPc target)).outcome

end Sys2Proof.Machine
end

