-- ==== Sys2Proof/Machine/Illegal.lean ====
section
/-! DEFINITION. The 59 illegal bytes of R72, one meaning each (R221). A meaning is run with PC already past the
instruction's bytes (R14). -/

namespace Sys2Proof.Machine

/-- ILLEGAL_00 (R221; 0x00). No instruction: IllegalOpcode. -/
def execIllegal00 (s : State) : Host.Outcome State Fault Refusal :=
  (illegalOpcode 0x00 s).outcome

/-- ILLEGAL_02 (R221; 0x02). No instruction: IllegalOpcode. -/
def execIllegal02 (s : State) : Host.Outcome State Fault Refusal :=
  (illegalOpcode 0x02 s).outcome

/-- ILLEGAL_03 (R221; 0x03). No instruction: IllegalOpcode. -/
def execIllegal03 (s : State) : Host.Outcome State Fault Refusal :=
  (illegalOpcode 0x03 s).outcome

/-- ILLEGAL_04 (R221; 0x04). No instruction: IllegalOpcode. -/
def execIllegal04 (s : State) : Host.Outcome State Fault Refusal :=
  (illegalOpcode 0x04 s).outcome

/-- ILLEGAL_05 (R221; 0x05). No instruction: IllegalOpcode. -/
def execIllegal05 (s : State) : Host.Outcome State Fault Refusal :=
  (illegalOpcode 0x05 s).outcome

/-- ILLEGAL_12 (R221; 0x12). No instruction: IllegalOpcode. -/
def execIllegal12 (s : State) : Host.Outcome State Fault Refusal :=
  (illegalOpcode 0x12 s).outcome

/-- ILLEGAL_13 (R221; 0x13). No instruction: IllegalOpcode. -/
def execIllegal13 (s : State) : Host.Outcome State Fault Refusal :=
  (illegalOpcode 0x13 s).outcome

/-- ILLEGAL_14 (R221; 0x14). No instruction: IllegalOpcode. -/
def execIllegal14 (s : State) : Host.Outcome State Fault Refusal :=
  (illegalOpcode 0x14 s).outcome

/-- ILLEGAL_15 (R221; 0x15). No instruction: IllegalOpcode. -/
def execIllegal15 (s : State) : Host.Outcome State Fault Refusal :=
  (illegalOpcode 0x15 s).outcome

/-- ILLEGAL_18 (R221; 0x18). No instruction: IllegalOpcode. -/
def execIllegal18 (s : State) : Host.Outcome State Fault Refusal :=
  (illegalOpcode 0x18 s).outcome

/-- ILLEGAL_1A (R221; 0x1A). No instruction: IllegalOpcode. -/
def execIllegal1A (s : State) : Host.Outcome State Fault Refusal :=
  (illegalOpcode 0x1A s).outcome

/-- ILLEGAL_1C (R221; 0x1C). No instruction: IllegalOpcode. -/
def execIllegal1C (s : State) : Host.Outcome State Fault Refusal :=
  (illegalOpcode 0x1C s).outcome

/-- ILLEGAL_1D (R221; 0x1D). No instruction: IllegalOpcode. -/
def execIllegal1D (s : State) : Host.Outcome State Fault Refusal :=
  (illegalOpcode 0x1D s).outcome

/-- ILLEGAL_1E (R221; 0x1E). No instruction: IllegalOpcode. -/
def execIllegal1E (s : State) : Host.Outcome State Fault Refusal :=
  (illegalOpcode 0x1E s).outcome

/-- ILLEGAL_1F (R221; 0x1F). No instruction: IllegalOpcode. -/
def execIllegal1F (s : State) : Host.Outcome State Fault Refusal :=
  (illegalOpcode 0x1F s).outcome

/-- ILLEGAL_21 (R221; 0x21). No instruction: IllegalOpcode. -/
def execIllegal21 (s : State) : Host.Outcome State Fault Refusal :=
  (illegalOpcode 0x21 s).outcome

/-- ILLEGAL_38 (R221; 0x38). No instruction: IllegalOpcode. -/
def execIllegal38 (s : State) : Host.Outcome State Fault Refusal :=
  (illegalOpcode 0x38 s).outcome

/-- ILLEGAL_3A (R221; 0x3A). No instruction: IllegalOpcode. -/
def execIllegal3A (s : State) : Host.Outcome State Fault Refusal :=
  (illegalOpcode 0x3A s).outcome

/-- ILLEGAL_3C (R221; 0x3C). No instruction: IllegalOpcode. -/
def execIllegal3C (s : State) : Host.Outcome State Fault Refusal :=
  (illegalOpcode 0x3C s).outcome

/-- ILLEGAL_3D (R221; 0x3D). No instruction: IllegalOpcode. -/
def execIllegal3D (s : State) : Host.Outcome State Fault Refusal :=
  (illegalOpcode 0x3D s).outcome

/-- ILLEGAL_41 (R221; 0x41). No instruction: IllegalOpcode. -/
def execIllegal41 (s : State) : Host.Outcome State Fault Refusal :=
  (illegalOpcode 0x41 s).outcome

/-- ILLEGAL_42 (R221; 0x42). No instruction: IllegalOpcode. -/
def execIllegal42 (s : State) : Host.Outcome State Fault Refusal :=
  (illegalOpcode 0x42 s).outcome

/-- ILLEGAL_45 (R221; 0x45). No instruction: IllegalOpcode. -/
def execIllegal45 (s : State) : Host.Outcome State Fault Refusal :=
  (illegalOpcode 0x45 s).outcome

/-- ILLEGAL_4B (R221; 0x4B). No instruction: IllegalOpcode. -/
def execIllegal4B (s : State) : Host.Outcome State Fault Refusal :=
  (illegalOpcode 0x4B s).outcome

/-- ILLEGAL_4E (R221; 0x4E). No instruction: IllegalOpcode. -/
def execIllegal4E (s : State) : Host.Outcome State Fault Refusal :=
  (illegalOpcode 0x4E s).outcome

/-- ILLEGAL_51 (R221; 0x51). No instruction: IllegalOpcode. -/
def execIllegal51 (s : State) : Host.Outcome State Fault Refusal :=
  (illegalOpcode 0x51 s).outcome

/-- ILLEGAL_52 (R221; 0x52). No instruction: IllegalOpcode. -/
def execIllegal52 (s : State) : Host.Outcome State Fault Refusal :=
  (illegalOpcode 0x52 s).outcome

/-- ILLEGAL_55 (R221; 0x55). No instruction: IllegalOpcode. -/
def execIllegal55 (s : State) : Host.Outcome State Fault Refusal :=
  (illegalOpcode 0x55 s).outcome

/-- ILLEGAL_5B (R221; 0x5B). No instruction: IllegalOpcode. -/
def execIllegal5B (s : State) : Host.Outcome State Fault Refusal :=
  (illegalOpcode 0x5B s).outcome

/-- ILLEGAL_5E (R221; 0x5E). No instruction: IllegalOpcode. -/
def execIllegal5E (s : State) : Host.Outcome State Fault Refusal :=
  (illegalOpcode 0x5E s).outcome

/-- ILLEGAL_61 (R221; 0x61). No instruction: IllegalOpcode. -/
def execIllegal61 (s : State) : Host.Outcome State Fault Refusal :=
  (illegalOpcode 0x61 s).outcome

/-- ILLEGAL_62 (R221; 0x62). No instruction: IllegalOpcode. -/
def execIllegal62 (s : State) : Host.Outcome State Fault Refusal :=
  (illegalOpcode 0x62 s).outcome

/-- ILLEGAL_65 (R221; 0x65). No instruction: IllegalOpcode. -/
def execIllegal65 (s : State) : Host.Outcome State Fault Refusal :=
  (illegalOpcode 0x65 s).outcome

/-- ILLEGAL_6B (R221; 0x6B). No instruction: IllegalOpcode. -/
def execIllegal6B (s : State) : Host.Outcome State Fault Refusal :=
  (illegalOpcode 0x6B s).outcome

/-- ILLEGAL_71 (R221; 0x71). No instruction: IllegalOpcode. -/
def execIllegal71 (s : State) : Host.Outcome State Fault Refusal :=
  (illegalOpcode 0x71 s).outcome

/-- ILLEGAL_72 (R221; 0x72). No instruction: IllegalOpcode. -/
def execIllegal72 (s : State) : Host.Outcome State Fault Refusal :=
  (illegalOpcode 0x72 s).outcome

/-- ILLEGAL_75 (R221; 0x75). No instruction: IllegalOpcode. -/
def execIllegal75 (s : State) : Host.Outcome State Fault Refusal :=
  (illegalOpcode 0x75 s).outcome

/-- ILLEGAL_7B (R221; 0x7B). No instruction: IllegalOpcode. -/
def execIllegal7B (s : State) : Host.Outcome State Fault Refusal :=
  (illegalOpcode 0x7B s).outcome

/-- ILLEGAL_83 (R221; 0x83). No instruction: IllegalOpcode. -/
def execIllegal83 (s : State) : Host.Outcome State Fault Refusal :=
  (illegalOpcode 0x83 s).outcome

/-- ILLEGAL_87 (R221; 0x87). No instruction: IllegalOpcode. -/
def execIllegal87 (s : State) : Host.Outcome State Fault Refusal :=
  (illegalOpcode 0x87 s).outcome

/-- ILLEGAL_8F (R221; 0x8F). No instruction: IllegalOpcode. -/
def execIllegal8F (s : State) : Host.Outcome State Fault Refusal :=
  (illegalOpcode 0x8F s).outcome

/-- ILLEGAL_93 (R221; 0x93). No instruction: IllegalOpcode. -/
def execIllegal93 (s : State) : Host.Outcome State Fault Refusal :=
  (illegalOpcode 0x93 s).outcome

/-- ILLEGAL_9D (R221; 0x9D). No instruction: IllegalOpcode. -/
def execIllegal9D (s : State) : Host.Outcome State Fault Refusal :=
  (illegalOpcode 0x9D s).outcome

/-- ILLEGAL_A3 (R221; 0xA3). No instruction: IllegalOpcode. -/
def execIllegalA3 (s : State) : Host.Outcome State Fault Refusal :=
  (illegalOpcode 0xA3 s).outcome

/-- ILLEGAL_B3 (R221; 0xB3). No instruction: IllegalOpcode. -/
def execIllegalB3 (s : State) : Host.Outcome State Fault Refusal :=
  (illegalOpcode 0xB3 s).outcome

/-- ILLEGAL_C3 (R221; 0xC3). No instruction: IllegalOpcode. -/
def execIllegalC3 (s : State) : Host.Outcome State Fault Refusal :=
  (illegalOpcode 0xC3 s).outcome

/-- ILLEGAL_C7 (R221; 0xC7). No instruction: IllegalOpcode. -/
def execIllegalC7 (s : State) : Host.Outcome State Fault Refusal :=
  (illegalOpcode 0xC7 s).outcome

/-- ILLEGAL_CC (R221; 0xCC). No instruction: IllegalOpcode. -/
def execIllegalCC (s : State) : Host.Outcome State Fault Refusal :=
  (illegalOpcode 0xCC s).outcome

/-- ILLEGAL_CD (R221; 0xCD). No instruction: IllegalOpcode. -/
def execIllegalCD (s : State) : Host.Outcome State Fault Refusal :=
  (illegalOpcode 0xCD s).outcome

/-- ILLEGAL_CF (R221; 0xCF). No instruction: IllegalOpcode. -/
def execIllegalCF (s : State) : Host.Outcome State Fault Refusal :=
  (illegalOpcode 0xCF s).outcome

/-- ILLEGAL_D3 (R221; 0xD3). No instruction: IllegalOpcode. -/
def execIllegalD3 (s : State) : Host.Outcome State Fault Refusal :=
  (illegalOpcode 0xD3 s).outcome

/-- ILLEGAL_DC (R221; 0xDC). No instruction: IllegalOpcode. -/
def execIllegalDC (s : State) : Host.Outcome State Fault Refusal :=
  (illegalOpcode 0xDC s).outcome

/-- ILLEGAL_DD (R221; 0xDD). No instruction: IllegalOpcode. -/
def execIllegalDD (s : State) : Host.Outcome State Fault Refusal :=
  (illegalOpcode 0xDD s).outcome

/-- ILLEGAL_E3 (R221; 0xE3). No instruction: IllegalOpcode. -/
def execIllegalE3 (s : State) : Host.Outcome State Fault Refusal :=
  (illegalOpcode 0xE3 s).outcome

/-- ILLEGAL_EC (R221; 0xEC). No instruction: IllegalOpcode. -/
def execIllegalEC (s : State) : Host.Outcome State Fault Refusal :=
  (illegalOpcode 0xEC s).outcome

/-- ILLEGAL_ED (R221; 0xED). No instruction: IllegalOpcode. -/
def execIllegalED (s : State) : Host.Outcome State Fault Refusal :=
  (illegalOpcode 0xED s).outcome

/-- ILLEGAL_F3 (R221; 0xF3). No instruction: IllegalOpcode. -/
def execIllegalF3 (s : State) : Host.Outcome State Fault Refusal :=
  (illegalOpcode 0xF3 s).outcome

/-- ILLEGAL_FC (R221; 0xFC). No instruction: IllegalOpcode. -/
def execIllegalFC (s : State) : Host.Outcome State Fault Refusal :=
  (illegalOpcode 0xFC s).outcome

/-- ILLEGAL_FD (R221; 0xFD). No instruction: IllegalOpcode. -/
def execIllegalFD (s : State) : Host.Outcome State Fault Refusal :=
  (illegalOpcode 0xFD s).outcome

end Sys2Proof.Machine
end

