-- ==== Sys2Proof/Machine/LoadStore.lean ====
section
/-! DEFINITION. Loads, stores, transfers and the stack instructions (43_load_store_transfer.md). A meaning is run with PC already past the
instruction's bytes (R14). -/

namespace Sys2Proof.Machine

/-- LDAA (R170; 0x86, 0x96, 0xA6, 0xB6). The operand goes to A; N, Z written, V cleared. -/
def execLdaa (src : Src8) (s : State) : Host.Outcome State Fault Refusal :=
  (accOperand ldaOp .a src s).outcome

/-- LDAB (R170; 0xC6, 0xD6, 0xE6, 0xF6). The operand goes to B; N, Z written, V cleared. -/
def execLdab (src : Src8) (s : State) : Host.Outcome State Fault Refusal :=
  (accOperand ldaOp .b src s).outcome

/-- STAA (R171; 0x97, 0xA7, 0xB7). A is stored at the effective address, which is not read; N, Z written, V cleared. -/
def execStaa (dst : Mem) (s : State) : Host.Outcome State Fault Refusal :=
  ((memWrite8 (effAddr dst s) s.a s).bind fun _ s1 => .ok () (s1.setCc (s.cc.logic8 s.a))).outcome

/-- STAB (R171; 0xD7, 0xE7, 0xF7). B is stored at the effective address, which is not read; N, Z written, V cleared. -/
def execStab (dst : Mem) (s : State) : Host.Outcome State Fault Refusal :=
  ((memWrite8 (effAddr dst s) s.b s).bind fun _ s1 => .ok () (s1.setCc (s.cc.logic8 s.b))).outcome

/-- LDX (R172; 0xCE, 0xDE, 0xEE, 0xFE). The operand goes to X; N, Z written, V cleared. -/
def execLdx (src : Src16) (s : State) : Host.Outcome State Fault Refusal :=
  ((operand16 src s).bind fun m s1 => .ok () ((s1.setX m).setCc (s1.cc.logic16 m))).outcome

/-- LDS (R173; 0x8E, 0x9E, 0xAE, 0xBE). The operand goes to SP; N, Z written, V cleared. -/
def execLds (src : Src16) (s : State) : Host.Outcome State Fault Refusal :=
  ((operand16 src s).bind fun m s1 => .ok () ((s1.setSp m).setCc (s1.cc.logic16 m))).outcome

/-- STX (R174; 0xDF, 0xEF, 0xFF). X is stored at the effective address, high byte first; N, Z written, V cleared. -/
def execStx (dst : Mem) (s : State) : Host.Outcome State Fault Refusal :=
  ((memWrite16 (effAddr dst s) s.x s).bind fun _ s1 => .ok () (s1.setCc (s.cc.logic16 s.x))).outcome

/-- STS (R175; 0x9F, 0xAF, 0xBF). SP is stored at the effective address, high byte first; N, Z written, V cleared. -/
def execSts (dst : Mem) (s : State) : Host.Outcome State Fault Refusal :=
  ((memWrite16 (effAddr dst s) s.sp s).bind fun _ s1 => .ok () (s1.setCc (s.cc.logic16 s.sp))).outcome

/-- TAB (R176; 0x16). A goes to B; N, Z written, V cleared. -/
def execTab (s : State) : Host.Outcome State Fault Refusal :=
  .next ((s.setB s.a).setCc (s.cc.logic8 s.a))

/-- TBA (R177; 0x17). B goes to A; N, Z written, V cleared. -/
def execTba (s : State) : Host.Outcome State Fault Refusal :=
  .next ((s.setA s.b).setCc (s.cc.logic8 s.b))

/-- TSX (R178; 0x30). SP plus 1 goes to X; no flag is written. -/
def execTsx (s : State) : Host.Outcome State Fault Refusal :=
  .next (s.setX (s.sp + 1))

/-- TXS (R179; 0x35). X minus 1 goes to SP; no flag is written. -/
def execTxs (s : State) : Host.Outcome State Fault Refusal :=
  .next (s.setSp (s.x - 1))

/-- PSHA (R180; 0x36). A is pushed; no flag is written. -/
def execPsha (s : State) : Host.Outcome State Fault Refusal :=
  (push8 s.a s).outcome

/-- PSHB (R180; 0x37). B is pushed; no flag is written. -/
def execPshb (s : State) : Host.Outcome State Fault Refusal :=
  (push8 s.b s).outcome

/-- PULA (R181; 0x32). A byte is pulled into A; no flag is written. -/
def execPula (s : State) : Host.Outcome State Fault Refusal :=
  ((pull8 s).bind fun v s1 => .ok () (s1.setA v)).outcome

/-- PULB (R181; 0x33). A byte is pulled into B; no flag is written. -/
def execPulb (s : State) : Host.Outcome State Fault Refusal :=
  ((pull8 s).bind fun v s1 => .ok () (s1.setB v)).outcome

end Sys2Proof.Machine
end

