-- ==== Sys2Proof/Machine/Logic.lean ====
section
/-! DEFINITION. Logic, test and clear (44_logic.md). A meaning is run with PC already past the
instruction's bytes (R14). -/

namespace Sys2Proof.Machine

/-- ANDA (R190; 0x84, 0x94, 0xA4, 0xB4). A and the operand, bit by bit, goes to A; N, Z written, V cleared. -/
def execAnda (src : Src8) (s : State) : Host.Outcome State Fault Refusal :=
  (accOperand andOp .a src s).outcome

/-- ANDB (R190; 0xC4, 0xD4, 0xE4, 0xF4). B and the operand, bit by bit, goes to B; N, Z written, V cleared. -/
def execAndb (src : Src8) (s : State) : Host.Outcome State Fault Refusal :=
  (accOperand andOp .b src s).outcome

/-- ORAA (R191; 0x8A, 0x9A, 0xAA, 0xBA). A or the operand, bit by bit, goes to A; N, Z written, V cleared. -/
def execOraa (src : Src8) (s : State) : Host.Outcome State Fault Refusal :=
  (accOperand oraOp .a src s).outcome

/-- ORAB (R191; 0xCA, 0xDA, 0xEA, 0xFA). B or the operand, bit by bit, goes to B; N, Z written, V cleared. -/
def execOrab (src : Src8) (s : State) : Host.Outcome State Fault Refusal :=
  (accOperand oraOp .b src s).outcome

/-- EORA (R192; 0x88, 0x98, 0xA8, 0xB8). A exclusive-or the operand goes to A; N, Z written, V cleared. -/
def execEora (src : Src8) (s : State) : Host.Outcome State Fault Refusal :=
  (accOperand eorOp .a src s).outcome

/-- EORB (R192; 0xC8, 0xD8, 0xE8, 0xF8). B exclusive-or the operand goes to B; N, Z written, V cleared. -/
def execEorb (src : Src8) (s : State) : Host.Outcome State Fault Refusal :=
  (accOperand eorOp .b src s).outcome

/-- BITA (R193; 0x85, 0x95, 0xA5, 0xB5). The flags of A and the operand; A is kept. -/
def execBita (src : Src8) (s : State) : Host.Outcome State Fault Refusal :=
  (accTest bitFlags .a src s).outcome

/-- BITB (R193; 0xC5, 0xD5, 0xE5, 0xF5). The flags of B and the operand; B is kept. -/
def execBitb (src : Src8) (s : State) : Host.Outcome State Fault Refusal :=
  (accTest bitFlags .b src s).outcome

/-- COM (R194; 0x63, 0x73). The one's complement of the byte at the effective address. -/
def execCom (ea : IdxExt) (s : State) : Host.Outcome State Fault Refusal :=
  (memModify com8 ea s).outcome

/-- COMA (R194; 0x43). The one's complement of A. -/
def execComa (s : State) : Host.Outcome State Fault Refusal :=
  (accModify com8 .a s).outcome

/-- COMB (R194; 0x53). The one's complement of B. -/
def execComb (s : State) : Host.Outcome State Fault Refusal :=
  (accModify com8 .b s).outcome

/-- TST (R195; 0x6D, 0x7D). The flags of the byte at the effective address; it is read and not written. -/
def execTst (ea : IdxExt) (s : State) : Host.Outcome State Fault Refusal :=
  ((memRead8 (effAddr ea.toMem s) s).bind fun v s1 => .ok () (s1.setCc (tstFlags v s1.cc))).outcome

/-- TSTA (R195; 0x4D). The flags of A; nothing else is written. -/
def execTsta (s : State) : Host.Outcome State Fault Refusal :=
  .next (s.setCc (tstFlags s.a s.cc))

/-- TSTB (R195; 0x5D). The flags of B; nothing else is written. -/
def execTstb (s : State) : Host.Outcome State Fault Refusal :=
  .next (s.setCc (tstFlags s.b s.cc))

/-- CLR (R196; 0x6F, 0x7F). The byte at the effective address becomes 0; with `CLR_READS_OPERAND` it is read first and the value dropped. -/
def execClr (ea : IdxExt) (s : State) : Host.Outcome State Fault Refusal :=
  ((if s.config.clrReadsOperand then
      (memRead8 (effAddr ea.toMem s) s).bind fun _ s1 => memWrite8 (effAddr ea.toMem s) 0 s1
    else memWrite8 (effAddr ea.toMem s) 0 s).bind fun _ s2 => .ok () (s2.setCc (clrFlags s2.cc))).outcome

/-- CLRA (R196; 0x4F). A becomes 0. -/
def execClra (s : State) : Host.Outcome State Fault Refusal :=
  .next ((s.setA 0).setCc (clrFlags s.cc))

/-- CLRB (R196; 0x5F). B becomes 0. -/
def execClrb (s : State) : Host.Outcome State Fault Refusal :=
  .next ((s.setB 0).setCc (clrFlags s.cc))

end Sys2Proof.Machine
end

