-- ==== Sys2Proof/Machine/Shift.lean ====
section
/-! DEFINITION. Shifts and rotates (41_shift_rotate.md). A meaning is run with PC already past the
instruction's bytes (R14). -/

namespace Sys2Proof.Machine

/-- ASL (R131; 0x68, 0x78). The shift left of the byte at the effective address. -/
def execAsl (ea : IdxExt) (s : State) : Host.Outcome State Fault Refusal :=
  (memModify asl8 ea s).outcome

/-- ASLA (R131; 0x48). The shift left of A. -/
def execAsla (s : State) : Host.Outcome State Fault Refusal :=
  (accModify asl8 .a s).outcome

/-- ASLB (R131; 0x58). The shift left of B. -/
def execAslb (s : State) : Host.Outcome State Fault Refusal :=
  (accModify asl8 .b s).outcome

/-- ASR (R132; 0x67, 0x77). The arithmetic shift right of the byte at the effective address. -/
def execAsr (ea : IdxExt) (s : State) : Host.Outcome State Fault Refusal :=
  (memModify asr8 ea s).outcome

/-- ASRA (R132; 0x47). The arithmetic shift right of A. -/
def execAsra (s : State) : Host.Outcome State Fault Refusal :=
  (accModify asr8 .a s).outcome

/-- ASRB (R132; 0x57). The arithmetic shift right of B. -/
def execAsrb (s : State) : Host.Outcome State Fault Refusal :=
  (accModify asr8 .b s).outcome

/-- LSR (R133; 0x64, 0x74). The logical shift right of the byte at the effective address. -/
def execLsr (ea : IdxExt) (s : State) : Host.Outcome State Fault Refusal :=
  (memModify lsr8 ea s).outcome

/-- LSRA (R133; 0x44). The logical shift right of A. -/
def execLsra (s : State) : Host.Outcome State Fault Refusal :=
  (accModify lsr8 .a s).outcome

/-- LSRB (R133; 0x54). The logical shift right of B. -/
def execLsrb (s : State) : Host.Outcome State Fault Refusal :=
  (accModify lsr8 .b s).outcome

/-- ROL (R134; 0x69, 0x79). The rotation left through C of the byte at the effective address. -/
def execRol (ea : IdxExt) (s : State) : Host.Outcome State Fault Refusal :=
  (memModify rol8 ea s).outcome

/-- ROLA (R134; 0x49). The rotation left through C of A. -/
def execRola (s : State) : Host.Outcome State Fault Refusal :=
  (accModify rol8 .a s).outcome

/-- ROLB (R134; 0x59). The rotation left through C of B. -/
def execRolb (s : State) : Host.Outcome State Fault Refusal :=
  (accModify rol8 .b s).outcome

/-- ROR (R135; 0x66, 0x76). The rotation right through C of the byte at the effective address. -/
def execRor (ea : IdxExt) (s : State) : Host.Outcome State Fault Refusal :=
  (memModify ror8 ea s).outcome

/-- RORA (R135; 0x46). The rotation right through C of A. -/
def execRora (s : State) : Host.Outcome State Fault Refusal :=
  (accModify ror8 .a s).outcome

/-- RORB (R135; 0x56). The rotation right through C of B. -/
def execRorb (s : State) : Host.Outcome State Fault Refusal :=
  (accModify ror8 .b s).outcome

end Sys2Proof.Machine
end

