-- ==== Sys2Proof/Machine/System.lean ====
section
/-! DEFINITION. Condition codes, no operation, and the interrupt instructions (45_cc_system.md). A meaning is run with PC already past the
instruction's bytes (R14). -/

namespace Sys2Proof.Machine

/-- CLC (R200; 0x0C). C = 0. -/
def execClc (s : State) : Host.Outcome State Fault Refusal :=
  .next (s.setCc (s.cc.setC false))

/-- SEC (R201; 0x0D). C = 1. -/
def execSec (s : State) : Host.Outcome State Fault Refusal :=
  .next (s.setCc (s.cc.setC true))

/-- CLV (R202; 0x0A). V = 0. -/
def execClv (s : State) : Host.Outcome State Fault Refusal :=
  .next (s.setCc (s.cc.setV false))

/-- SEV (R203; 0x0B). V = 1. -/
def execSev (s : State) : Host.Outcome State Fault Refusal :=
  .next (s.setCc (s.cc.setV true))

/-- CLI (R204; 0x0E). I = 0, with effect from the next step (D10). -/
def execCli (s : State) : Host.Outcome State Fault Refusal :=
  .next (s.setCc (s.cc.setI false))

/-- SEI (R205; 0x0F). I = 1, with effect from the next step (D10). -/
def execSei (s : State) : Host.Outcome State Fault Refusal :=
  .next (s.setCc (s.cc.setI true))

/-- TAP (R206; 0x06). The six flags take bits 5:0 of A. -/
def execTap (s : State) : Host.Outcome State Fault Refusal :=
  .next (s.setCc (CC.ofByte s.a))

/-- TPA (R207; 0x07). A becomes the condition codes as a byte, bits 7:6 being 1. -/
def execTpa (s : State) : Host.Outcome State Fault Refusal :=
  .next (s.setA s.cc.toByte)

/-- NOP (R208; 0x01). Nothing beyond the opcode fetch. -/
def execNop (s : State) : Host.Outcome State Fault Refusal :=
  .next s

/-- SWI (R209; 0x3F). The interrupt entry through 0xFFFA, whatever I is. -/
def execSwi (s : State) : Host.Outcome State Fault Refusal :=
  (enter swiVector true s).outcome

/-- RTI (R210; 0x3B). CC, B, A, X and PC are pulled from the frame. -/
def execRti (s : State) : Host.Outcome State Fault Refusal :=
  (returnFromInterrupt s).outcome

/-- WAI (R211; 0x3E). With `WAI_MODE = motorola` the registers are stacked and the machine waits; I is kept. With `fault` it raises UnimplementedOpcode (D9). -/
def execWai (s : State) : Host.Outcome State Fault Refusal :=
  match s.config.waiMode with
  | .motorola => ((stackAll s).bind fun _ s1 => .ok () (s1.setWaiWait true)).outcome
  | .fault => .fault (.unimplementedOpcode 0x3E (opcodeAddress s))

end Sys2Proof.Machine
end

