-- ==== Sys2Proof/Machine/Dispatch.lean ====
section
/-! DEFINITION. The dispatch: one arm per constructor of `Instr`, each one direct call of that instruction's meaning. -/

namespace Sys2Proof.Machine

def exec (i : Instr) (s : State) : Host.Outcome State Fault Refusal :=
  match i with
  | .illegal00 => Sys2Proof.Machine.execIllegal00 s
  | .nop => Sys2Proof.Machine.execNop s
  | .illegal02 => Sys2Proof.Machine.execIllegal02 s
  | .illegal03 => Sys2Proof.Machine.execIllegal03 s
  | .illegal04 => Sys2Proof.Machine.execIllegal04 s
  | .illegal05 => Sys2Proof.Machine.execIllegal05 s
  | .tap => Sys2Proof.Machine.execTap s
  | .tpa => Sys2Proof.Machine.execTpa s
  | .inx => Sys2Proof.Machine.execInx s
  | .dex => Sys2Proof.Machine.execDex s
  | .clv => Sys2Proof.Machine.execClv s
  | .sev => Sys2Proof.Machine.execSev s
  | .clc => Sys2Proof.Machine.execClc s
  | .sec => Sys2Proof.Machine.execSec s
  | .cli => Sys2Proof.Machine.execCli s
  | .sei => Sys2Proof.Machine.execSei s
  | .sba => Sys2Proof.Machine.execSba s
  | .cba => Sys2Proof.Machine.execCba s
  | .illegal12 => Sys2Proof.Machine.execIllegal12 s
  | .illegal13 => Sys2Proof.Machine.execIllegal13 s
  | .illegal14 => Sys2Proof.Machine.execIllegal14 s
  | .illegal15 => Sys2Proof.Machine.execIllegal15 s
  | .tab => Sys2Proof.Machine.execTab s
  | .tba => Sys2Proof.Machine.execTba s
  | .illegal18 => Sys2Proof.Machine.execIllegal18 s
  | .daa => Sys2Proof.Machine.execDaa s
  | .illegal1A => Sys2Proof.Machine.execIllegal1A s
  | .aba => Sys2Proof.Machine.execAba s
  | .illegal1C => Sys2Proof.Machine.execIllegal1C s
  | .illegal1D => Sys2Proof.Machine.execIllegal1D s
  | .illegal1E => Sys2Proof.Machine.execIllegal1E s
  | .illegal1F => Sys2Proof.Machine.execIllegal1F s
  | .bra rel => Sys2Proof.Machine.execBra rel s
  | .illegal21 => Sys2Proof.Machine.execIllegal21 s
  | .bhi rel => Sys2Proof.Machine.execBhi rel s
  | .bls rel => Sys2Proof.Machine.execBls rel s
  | .bcc rel => Sys2Proof.Machine.execBcc rel s
  | .bcs rel => Sys2Proof.Machine.execBcs rel s
  | .bne rel => Sys2Proof.Machine.execBne rel s
  | .beq rel => Sys2Proof.Machine.execBeq rel s
  | .bvc rel => Sys2Proof.Machine.execBvc rel s
  | .bvs rel => Sys2Proof.Machine.execBvs rel s
  | .bpl rel => Sys2Proof.Machine.execBpl rel s
  | .bmi rel => Sys2Proof.Machine.execBmi rel s
  | .bge rel => Sys2Proof.Machine.execBge rel s
  | .blt rel => Sys2Proof.Machine.execBlt rel s
  | .bgt rel => Sys2Proof.Machine.execBgt rel s
  | .ble rel => Sys2Proof.Machine.execBle rel s
  | .tsx => Sys2Proof.Machine.execTsx s
  | .ins => Sys2Proof.Machine.execIns s
  | .pula => Sys2Proof.Machine.execPula s
  | .pulb => Sys2Proof.Machine.execPulb s
  | .des => Sys2Proof.Machine.execDes s
  | .txs => Sys2Proof.Machine.execTxs s
  | .psha => Sys2Proof.Machine.execPsha s
  | .pshb => Sys2Proof.Machine.execPshb s
  | .illegal38 => Sys2Proof.Machine.execIllegal38 s
  | .rts => Sys2Proof.Machine.execRts s
  | .illegal3A => Sys2Proof.Machine.execIllegal3A s
  | .rti => Sys2Proof.Machine.execRti s
  | .illegal3C => Sys2Proof.Machine.execIllegal3C s
  | .illegal3D => Sys2Proof.Machine.execIllegal3D s
  | .wai => Sys2Proof.Machine.execWai s
  | .swi => Sys2Proof.Machine.execSwi s
  | .nega => Sys2Proof.Machine.execNega s
  | .illegal41 => Sys2Proof.Machine.execIllegal41 s
  | .illegal42 => Sys2Proof.Machine.execIllegal42 s
  | .coma => Sys2Proof.Machine.execComa s
  | .lsra => Sys2Proof.Machine.execLsra s
  | .illegal45 => Sys2Proof.Machine.execIllegal45 s
  | .rora => Sys2Proof.Machine.execRora s
  | .asra => Sys2Proof.Machine.execAsra s
  | .asla => Sys2Proof.Machine.execAsla s
  | .rola => Sys2Proof.Machine.execRola s
  | .deca => Sys2Proof.Machine.execDeca s
  | .illegal4B => Sys2Proof.Machine.execIllegal4B s
  | .inca => Sys2Proof.Machine.execInca s
  | .tsta => Sys2Proof.Machine.execTsta s
  | .illegal4E => Sys2Proof.Machine.execIllegal4E s
  | .clra => Sys2Proof.Machine.execClra s
  | .negb => Sys2Proof.Machine.execNegb s
  | .illegal51 => Sys2Proof.Machine.execIllegal51 s
  | .illegal52 => Sys2Proof.Machine.execIllegal52 s
  | .comb => Sys2Proof.Machine.execComb s
  | .lsrb => Sys2Proof.Machine.execLsrb s
  | .illegal55 => Sys2Proof.Machine.execIllegal55 s
  | .rorb => Sys2Proof.Machine.execRorb s
  | .asrb => Sys2Proof.Machine.execAsrb s
  | .aslb => Sys2Proof.Machine.execAslb s
  | .rolb => Sys2Proof.Machine.execRolb s
  | .decb => Sys2Proof.Machine.execDecb s
  | .illegal5B => Sys2Proof.Machine.execIllegal5B s
  | .incb => Sys2Proof.Machine.execIncb s
  | .tstb => Sys2Proof.Machine.execTstb s
  | .illegal5E => Sys2Proof.Machine.execIllegal5E s
  | .clrb => Sys2Proof.Machine.execClrb s
  | .neg ea => Sys2Proof.Machine.execNeg ea s
  | .illegal61 => Sys2Proof.Machine.execIllegal61 s
  | .illegal62 => Sys2Proof.Machine.execIllegal62 s
  | .com ea => Sys2Proof.Machine.execCom ea s
  | .lsr ea => Sys2Proof.Machine.execLsr ea s
  | .illegal65 => Sys2Proof.Machine.execIllegal65 s
  | .ror ea => Sys2Proof.Machine.execRor ea s
  | .asr ea => Sys2Proof.Machine.execAsr ea s
  | .asl ea => Sys2Proof.Machine.execAsl ea s
  | .rol ea => Sys2Proof.Machine.execRol ea s
  | .dec ea => Sys2Proof.Machine.execDec ea s
  | .illegal6B => Sys2Proof.Machine.execIllegal6B s
  | .inc ea => Sys2Proof.Machine.execInc ea s
  | .tst ea => Sys2Proof.Machine.execTst ea s
  | .jmp ea => Sys2Proof.Machine.execJmp ea s
  | .clr ea => Sys2Proof.Machine.execClr ea s
  | .illegal71 => Sys2Proof.Machine.execIllegal71 s
  | .illegal72 => Sys2Proof.Machine.execIllegal72 s
  | .illegal75 => Sys2Proof.Machine.execIllegal75 s
  | .illegal7B => Sys2Proof.Machine.execIllegal7B s
  | .suba src => Sys2Proof.Machine.execSuba src s
  | .cmpa src => Sys2Proof.Machine.execCmpa src s
  | .sbca src => Sys2Proof.Machine.execSbca src s
  | .illegal83 => Sys2Proof.Machine.execIllegal83 s
  | .anda src => Sys2Proof.Machine.execAnda src s
  | .bita src => Sys2Proof.Machine.execBita src s
  | .ldaa src => Sys2Proof.Machine.execLdaa src s
  | .illegal87 => Sys2Proof.Machine.execIllegal87 s
  | .eora src => Sys2Proof.Machine.execEora src s
  | .adca src => Sys2Proof.Machine.execAdca src s
  | .oraa src => Sys2Proof.Machine.execOraa src s
  | .adda src => Sys2Proof.Machine.execAdda src s
  | .cpx src => Sys2Proof.Machine.execCpx src s
  | .bsr rel => Sys2Proof.Machine.execBsr rel s
  | .lds src => Sys2Proof.Machine.execLds src s
  | .illegal8F => Sys2Proof.Machine.execIllegal8F s
  | .illegal93 => Sys2Proof.Machine.execIllegal93 s
  | .staa dst => Sys2Proof.Machine.execStaa dst s
  | .illegal9D => Sys2Proof.Machine.execIllegal9D s
  | .sts dst => Sys2Proof.Machine.execSts dst s
  | .illegalA3 => Sys2Proof.Machine.execIllegalA3 s
  | .jsr ea => Sys2Proof.Machine.execJsr ea s
  | .illegalB3 => Sys2Proof.Machine.execIllegalB3 s
  | .subb src => Sys2Proof.Machine.execSubb src s
  | .cmpb src => Sys2Proof.Machine.execCmpb src s
  | .sbcb src => Sys2Proof.Machine.execSbcb src s
  | .illegalC3 => Sys2Proof.Machine.execIllegalC3 s
  | .andb src => Sys2Proof.Machine.execAndb src s
  | .bitb src => Sys2Proof.Machine.execBitb src s
  | .ldab src => Sys2Proof.Machine.execLdab src s
  | .illegalC7 => Sys2Proof.Machine.execIllegalC7 s
  | .eorb src => Sys2Proof.Machine.execEorb src s
  | .adcb src => Sys2Proof.Machine.execAdcb src s
  | .orab src => Sys2Proof.Machine.execOrab src s
  | .addb src => Sys2Proof.Machine.execAddb src s
  | .illegalCC => Sys2Proof.Machine.execIllegalCC s
  | .illegalCD => Sys2Proof.Machine.execIllegalCD s
  | .ldx src => Sys2Proof.Machine.execLdx src s
  | .illegalCF => Sys2Proof.Machine.execIllegalCF s
  | .illegalD3 => Sys2Proof.Machine.execIllegalD3 s
  | .stab dst => Sys2Proof.Machine.execStab dst s
  | .illegalDC => Sys2Proof.Machine.execIllegalDC s
  | .illegalDD => Sys2Proof.Machine.execIllegalDD s
  | .stx dst => Sys2Proof.Machine.execStx dst s
  | .illegalE3 => Sys2Proof.Machine.execIllegalE3 s
  | .illegalEC => Sys2Proof.Machine.execIllegalEC s
  | .illegalED => Sys2Proof.Machine.execIllegalED s
  | .illegalF3 => Sys2Proof.Machine.execIllegalF3 s
  | .illegalFC => Sys2Proof.Machine.execIllegalFC s
  | .illegalFD => Sys2Proof.Machine.execIllegalFD s

end Sys2Proof.Machine
end

