-- ==== Sys2Proof/Machine/Step.lean ====
section
/-! DEFINITION. One step of the CPU engine (R226): an interrupt entry, an idle step, or one instruction. -/

namespace Sys2Proof.Machine

/-- The instruction at PC, fetched byte by byte, and the state after the fetch: PC past its last byte (R14, R62). The opcode
alone decides how many operand bytes are read (R73). -/
def fetchInstr (s : State) : Res Instr :=
  (fetch8 s).bind fun op s1 =>
    match operandCount op with
    | 0 => .ok (decodeWith op 0 0) s1
    | 1 => (fetch8 s1).bind fun b1 s2 => .ok (decodeWith op b1 0) s2
    | _ => (fetch8 s1).bind fun b1 s2 => (fetch8 s2).bind fun b2 s3 => .ok (decodeWith op b1 b2) s3

/-- The normal arm of R226: fetch, decode, execute. -/
def fetchExecute (s : State) : Host.Outcome State Fault Refusal :=
  match fetchInstr s with
  | .ok i s1 => exec i s1
  | .fault f => .fault f

/-- The interrupt arms of R226: the entry stacks the registers unless WAI has done so, and ends the wait. -/
def takeInterrupt (vector : Word) (s : State) : Host.Outcome State Fault Refusal :=
  ((enter vector (!s.waiWait) s).bind fun _ s1 => .ok () (s1.setWaiWait false)).outcome

/-- The IRQ condition of R226: a latched port and I clear. -/
def irqTaken (s : State) : Bool := (irq .a s || irq .b s) && !s.cc.i

/-- The step procedure of R226, in its order of priority (R227). A machine with a recorded fault takes no step (R18). -/
def step (s : State) : Host.Outcome State Fault Refusal :=
  match s.fault with
  | some f => .fault f
  | none =>
    if s.nmiPending then takeInterrupt nmiVector (s.setNmiPending false)
    else if irqTaken s then takeInterrupt irqVector s
    else if s.waiWait then .next s
    else fetchExecute s

/-- `s` with the instruction whose bits are `w` (its first byte in bits 7..0; bits at and above `nbits` are 0) stored where
the next fetch reads: at PC and the two addresses after it, in RAM or in the ROM image (log entry 17). -/
def State.withFetchWord (s : State) (nbits w : Nat) : State :=
  let v := w % 2 ^ nbits
  poke (s.pc + 2) (BitVec.ofNat 8 (v / 65536))
    (poke (s.pc + 1) (BitVec.ofNat 8 (v / 256)) (poke s.pc (BitVec.ofNat 8 v) s))

end Sys2Proof.Machine
end

