-- ==== Sys2Proof/Machine/HostOps.lean ====
section
/-! DEFINITION. The host interface (R287): what the world outside may do between two steps, and the runs that interleave it
with steps (R8, D27). -/

namespace Sys2Proof.Machine

/-- `drive_port(p, v)` (R245): the value is latched, flag bit 7 and the interrupt latch of the port are set. -/
def drivePort (p : PortId) (v : Byte) (s : State) : State :=
  s.setPort p { s.port p with
    inputLatch := v, controlRegister := (s.port p).controlRegister ||| 0x80, irqLatched := true }

/-- `assert_nmi()` (R228). -/
def assertNmi (s : State) : State := s.setNmiPending true

/-- The values the spec leaves unspecified at reset (D6, U4, U5): the registers, the flags but I, and the RAM at power-up. An
argument of every reset, so that a statement about reset holds for every value of them. -/
structure ResetDraw where
  a : Byte
  b : Byte
  x : Word
  sp : Word
  h : Bool
  n : Bool
  z : Bool
  v : Bool
  c : Bool
  ram : Memory
deriving DecidableEq, Repr

/-- R280 up to its last line: every element at its reset value, PC not loaded yet. The zero in PC is the model's and stays only in
a machine whose vector cannot be read (DESIGN CHOICE, log entry 24). -/
def resetElements (c : Config) (d : ResetDraw) (ram : Memory) (draws : Nat) : State where
  a := d.a
  b := d.b
  x := d.x
  sp := d.sp
  pc := 0
  cc := { h := d.h, i := true, n := d.n, z := d.z, v := d.v, c := d.c }
  nmiPending := false
  waiWait := false
  fault := none
  mem := ram
  portA := Port.reset
  portB := Port.reset
  cvsd := Cvsd.reset
  config := c
  draws := draws

/-- The last line of R280: PC from the reset vector; a machine whose vector cannot be read is dead from the start.
The spec leaves the state of that machine undefined (R220, D16, U6); the model leaves PC at 0 and every other element as it was
before the two reads (DESIGN CHOICE, log entry 24). -/
def loadResetVector (s : State) : State :=
  match memRead16 resetVector s with
  | .ok pc t => t.setPc pc
  | .fault f => s.setFault (some f)

/-- The construction of the machine (R280): RAM holds any contents. -/
def construct (c : Config) (d : ResetDraw) : State := loadResetVector (resetElements c d d.ram 0)

/-- The host operation `reset()` on a machine (R280): RAM keeps its contents. A faulted machine's RAM is undefined (U6), and
R18 has its fault cleared only by constructing it anew, so there RAM is drawn again (log entry 18). -/
def hostReset (d : ResetDraw) (s : State) : State :=
  loadResetVector (resetElements s.config d (if s.fault = none then s.mem else d.ram) s.draws)

/-- `step()` as the host sees it: a step that faults leaves its fault recorded (R18, R220), and no state of a faulted machine
is to be read (U6, log entry 7). -/
def hostStep (s : State) : State :=
  match step s with
  | .next t => t
  | .fault f => s.setFault (some f)
  | .refused _ => s

/-- The host's operations that change the machine (R287). -/
inductive HostOp where
  | step
  | drivePort (p : PortId) (v : Byte)
  | assertNmi
  | reset (d : ResetDraw)
deriving DecidableEq, Repr

/-- One host operation. -/
def applyHostOp (op : HostOp) (s : State) : State :=
  match op with
  | .step => hostStep s
  | .drivePort p v => Sys2Proof.Machine.drivePort p v s
  | .assertNmi => Sys2Proof.Machine.assertNmi s
  | .reset d => hostReset d s

/-- A run: the host's operations one after another, in any order and number (D27). -/
def runHost (ops : List HostOp) (s : State) : State :=
  match ops with
  | [] => s
  | op :: rest => runHost rest (applyHostOp op s)

/-! The host's reads, which change nothing (R287). -/

/-- The audio sample (R251). -/
def sample (s : State) : Rat := s.cvsd.state

/-- `decode_one(pc)` (R74): mnemonic, mode, operand bytes and length of the instruction at an address, through `peek` alone:
none where a byte is not in RAM or ROM, so that nothing is disturbed (log entry 20). -/
def decodeOne (addr : Word) (s : State) : Option (String × AddrMode × List Byte × Nat) :=
  match peek addr s with
  | none => none
  | some op =>
    match operandCount op, peek (addr + 1) s, peek (addr + 2) s with
    | 0, _, _ => some ((describe op).mnemonic, (describe op).mode, [], 1)
    | 1, some b1, _ => some ((describe op).mnemonic, (describe op).mode, [b1], 2)
    | 2, some b1, some b2 => some ((describe op).mnemonic, (describe op).mode, [b1, b2], 3)
    | _, _, _ => none

/-- The cycle cost of the next step where the spec gives one (R285): the descriptor's count if it runs an instruction. Reference
data; the cost of an interrupt entry is not stated (Q12). -/
def stepCycles (s : State) : Option Nat :=
  if s.fault.isSome || s.nmiPending || irqTaken s || s.waiWait then none
  else (peek s.pc s).bind fun op => (describe op).cycles

end Sys2Proof.Machine
end

