-- ==== Sys2Proof/Safety.lean ====
section
/-! DEFINITION. The terms claims are made in: what an address is good for, what an instruction may write, the invariant of the
machine, and what a safe run is. -/

namespace Sys2Proof.Safety

open Sys2Proof.Machine

/-- The address reads as RAM or ROM: reading it changes nothing and cannot fault (R31, R32). -/
abbrev readable (s : State) (addr : Word) : Prop := (peek addr s).isSome = true

/-- The address is RAM that can be written: storing there cannot fault and reaches no device (R31, R35). -/
def storable (s : State) (addr : Word) : Prop :=
  ∃ r, resolve s.config addr = some r ∧ r.owner = .ram ∧ r.writable = true

/-- The address is in the PIA's window (R33). -/
def inWindow (s : State) (addr : Word) : Prop := ∃ r, resolve s.config addr = some r ∧ r.owner = .pia

/-- Which flags an instruction may write, in the order H I N Z V C: the table of R26. -/
structure FlagSet where
  h : Bool
  i : Bool
  n : Bool
  z : Bool
  v : Bool
  c : Bool
deriving DecidableEq, Repr

/-- The table of R26, by instruction; WAI writes no flag itself (R211), and an illegal byte none (R221). -/
def flagsWritten : Instr → FlagSet
  | .adda _ | .addb _ | .adca _ | .adcb _ | .aba => ⟨true, false, true, true, true, true⟩
  | .suba _ | .subb _ | .sbca _ | .sbcb _ | .sba | .cmpa _ | .cmpb _ | .cba | .nega | .negb | .neg _ | .asla
  | .aslb | .asl _ | .asra | .asrb | .asr _ | .lsra | .lsrb | .lsr _ | .rola | .rolb | .rol _ | .rora
  | .rorb | .ror _ | .coma | .comb | .com _ | .clra | .clrb | .clr _ | .tsta | .tstb | .tst _ | .daa => ⟨false, false, true, true, true, true⟩
  | .anda _ | .andb _ | .oraa _ | .orab _ | .eora _ | .eorb _ | .bita _ | .bitb _ | .ldaa _ | .ldab _
  | .staa _ | .stab _ | .tab | .tba | .ldx _ | .lds _ | .stx _ | .sts _ | .cpx _ | .inca | .incb | .inc _
  | .deca | .decb | .dec _ => ⟨false, false, true, true, true, false⟩
  | .inx | .dex => ⟨false, false, false, true, false, false⟩
  | .clc | .sec => ⟨false, false, false, false, false, true⟩
  | .clv | .sev => ⟨false, false, false, false, true, false⟩
  | .cli | .sei | .swi => ⟨false, true, false, false, false, false⟩
  | .tap | .rti => ⟨true, true, true, true, true, true⟩
  | .bra _ | .bhi _ | .bls _ | .bcc _ | .bcs _ | .bne _ | .beq _ | .bvc _ | .bvs _ | .bpl _ | .bmi _
  | .bge _ | .blt _ | .bgt _ | .ble _ | .jmp _ | .jsr _ | .bsr _ | .rts | .nop | .psha | .pshb | .pula
  | .pulb | .ins | .des | .tsx | .txs | .tpa | .wai | .illegal00 | .illegal02 | .illegal03 | .illegal04
  | .illegal05 | .illegal12 | .illegal13 | .illegal14 | .illegal15 | .illegal18 | .illegal1A | .illegal1C
  | .illegal1D | .illegal1E | .illegal1F | .illegal21 | .illegal38 | .illegal3A | .illegal3C | .illegal3D
  | .illegal41 | .illegal42 | .illegal45 | .illegal4B | .illegal4E | .illegal51 | .illegal52 | .illegal55
  | .illegal5B | .illegal5E | .illegal61 | .illegal62 | .illegal65 | .illegal6B | .illegal71 | .illegal72
  | .illegal75 | .illegal7B | .illegal83 | .illegal87 | .illegal8F | .illegal93 | .illegal9D | .illegalA3
  | .illegalB3 | .illegalC3 | .illegalC7 | .illegalCC | .illegalCD | .illegalCF | .illegalD3 | .illegalDC
  | .illegalDD | .illegalE3 | .illegalEC | .illegalED | .illegalF3 | .illegalFC | .illegalFD => ⟨false, false, false, false, false, false⟩

/-- Which of the registers A, B, X, SP an instruction may write. -/
structure RegSet where
  a : Bool
  b : Bool
  x : Bool
  sp : Bool
deriving DecidableEq, Repr

/-- The registers each instruction writes, by the Operation line of its rule (files 40 to 45). -/
def regsWritten : Instr → RegSet
  | .adda _ | .adca _ | .suba _ | .sbca _ | .anda _ | .oraa _ | .eora _ | .ldaa _ | .nega | .coma | .inca
  | .deca | .asla | .asra | .lsra | .rola | .rora | .clra | .aba | .sba | .daa | .tba | .tpa => ⟨true, false, false, false⟩
  | .addb _ | .adcb _ | .subb _ | .sbcb _ | .andb _ | .orab _ | .eorb _ | .ldab _ | .negb | .comb | .incb
  | .decb | .aslb | .asrb | .lsrb | .rolb | .rorb | .clrb | .tab => ⟨false, true, false, false⟩
  | .inx | .dex | .ldx _ | .tsx => ⟨false, false, true, false⟩
  | .ins | .des | .lds _ | .txs | .psha | .pshb | .jsr _ | .bsr _ | .rts | .swi | .wai => ⟨false, false, false, true⟩
  | .pula => ⟨true, false, false, true⟩
  | .pulb => ⟨false, true, false, true⟩
  | .rti => ⟨true, true, true, true⟩
  | .cmpa _ | .cmpb _ | .bita _ | .bitb _ | .staa _ | .stab _ | .tsta | .tstb | .cba | .cpx _ | .stx _
  | .sts _ | .tst _ | .neg _ | .com _ | .inc _ | .dec _ | .asl _ | .asr _ | .lsr _ | .rol _ | .ror _
  | .clr _ | .bra _ | .bhi _ | .bls _ | .bcc _ | .bcs _ | .bne _ | .beq _ | .bvc _ | .bvs _ | .bpl _
  | .bmi _ | .bge _ | .blt _ | .bgt _ | .ble _ | .jmp _ | .nop | .clc | .sec | .clv | .sev | .cli | .sei
  | .tap | .illegal00 | .illegal02 | .illegal03 | .illegal04 | .illegal05 | .illegal12 | .illegal13
  | .illegal14 | .illegal15 | .illegal18 | .illegal1A | .illegal1C | .illegal1D | .illegal1E | .illegal1F
  | .illegal21 | .illegal38 | .illegal3A | .illegal3C | .illegal3D | .illegal41 | .illegal42 | .illegal45
  | .illegal4B | .illegal4E | .illegal51 | .illegal52 | .illegal55 | .illegal5B | .illegal5E | .illegal61
  | .illegal62 | .illegal65 | .illegal6B | .illegal71 | .illegal72 | .illegal75 | .illegal7B | .illegal83
  | .illegal87 | .illegal8F | .illegal93 | .illegal9D | .illegalA3 | .illegalB3 | .illegalC3 | .illegalC7
  | .illegalCC | .illegalCD | .illegalCF | .illegalD3 | .illegalDC | .illegalDD | .illegalE3 | .illegalEC
  | .illegalED | .illegalF3 | .illegalFC | .illegalFD => ⟨false, false, false, false⟩

/-- The addresses an 8-bit source is read from (R69). -/
def src8Reads (m : Src8) (s : State) : List Word :=
  match m with
  | .imm _ => []
  | .mem m => [effAddr m s]

/-- The addresses a 16-bit source is read from (R69). -/
def src16Reads (m : Src16) (s : State) : List Word :=
  match m with
  | .imm _ => []
  | .mem m => [effAddr m s, effAddr m s + 1]

/-- The addresses an instruction stores to (files 40 to 45; R40, R42, R224 for the stack). -/
def storedAddrs (i : Instr) (s : State) : List Word :=
  match i with
  | .staa m | .stab m => [effAddr m s]
  | .stx m | .sts m => [effAddr m s, effAddr m s + 1]
  | .neg m | .com m | .lsr m | .ror m | .asr m | .asl m | .rol m | .dec m | .inc m | .clr m => [effAddr m.toMem s]
  | .psha | .pshb => [s.sp]
  | .jsr _ | .bsr _ => [s.sp, s.sp - 1]
  | .swi | .wai => [s.sp, s.sp - 1, s.sp - 2, s.sp - 3, s.sp - 4, s.sp - 5, s.sp - 6]
  | .suba _ | .cmpa _ | .sbca _ | .anda _ | .bita _ | .ldaa _ | .eora _ | .adca _ | .oraa _ | .adda _
  | .subb _ | .cmpb _ | .sbcb _ | .andb _ | .bitb _ | .ldab _ | .eorb _ | .adcb _ | .orab _ | .addb _
  | .cpx _ | .lds _ | .ldx _ | .tst _ | .jmp _ | .bra _ | .bhi _ | .bls _ | .bcc _ | .bcs _ | .bne _
  | .beq _ | .bvc _ | .bvs _ | .bpl _ | .bmi _ | .bge _ | .blt _ | .bgt _ | .ble _ | .pula | .pulb | .rts
  | .rti | .nop | .tap | .tpa | .inx | .dex | .clv | .sev | .clc | .sec | .cli | .sei | .sba | .cba | .tab
  | .tba | .daa | .aba | .tsx | .ins | .des | .txs | .nega | .coma | .lsra | .rora | .asra | .asla | .rola
  | .deca | .inca | .tsta | .clra | .negb | .comb | .lsrb | .rorb | .asrb | .aslb | .rolb | .decb | .incb
  | .tstb | .clrb | .illegal00 | .illegal02 | .illegal03 | .illegal04 | .illegal05 | .illegal12 | .illegal13
  | .illegal14 | .illegal15 | .illegal18 | .illegal1A | .illegal1C | .illegal1D | .illegal1E | .illegal1F
  | .illegal21 | .illegal38 | .illegal3A | .illegal3C | .illegal3D | .illegal41 | .illegal42 | .illegal45
  | .illegal4B | .illegal4E | .illegal51 | .illegal52 | .illegal55 | .illegal5B | .illegal5E | .illegal61
  | .illegal62 | .illegal65 | .illegal6B | .illegal71 | .illegal72 | .illegal75 | .illegal7B | .illegal83
  | .illegal87 | .illegal8F | .illegal93 | .illegal9D | .illegalA3 | .illegalB3 | .illegalC3 | .illegalC7
  | .illegalCC | .illegalCD | .illegalCF | .illegalD3 | .illegalDC | .illegalDD | .illegalE3 | .illegalEC
  | .illegalED | .illegalF3 | .illegalFC | .illegalFD => []

/-- The addresses an instruction's data reads are made at (files 40 to 45; R41, R43 for the stack); CLR of memory is counted
whether or not it reads first (R196). -/
def loadedAddrs (i : Instr) (s : State) : List Word :=
  match i with
  | .suba m | .cmpa m | .sbca m | .anda m | .bita m | .ldaa m | .eora m | .adca m | .oraa m | .adda m
  | .subb m | .cmpb m | .sbcb m | .andb m | .bitb m | .ldab m | .eorb m | .adcb m | .orab m | .addb m => src8Reads m s
  | .cpx m | .lds m | .ldx m => src16Reads m s
  | .neg m | .com m | .lsr m | .ror m | .asr m | .asl m | .rol m | .dec m | .inc m | .clr m | .tst m => [effAddr m.toMem s]
  | .pula | .pulb => [s.sp + 1]
  | .rts => [s.sp + 1, s.sp + 2]
  | .rti => [s.sp + 1, s.sp + 2, s.sp + 3, s.sp + 4, s.sp + 5, s.sp + 6, s.sp + 7]
  | .swi => [swiVector, swiVector + 1]
  | .staa _ | .stab _ | .stx _ | .sts _ | .psha | .pshb | .jmp _ | .jsr _ | .bsr _ | .wai | .bra _ | .bhi _
  | .bls _ | .bcc _ | .bcs _ | .bne _ | .beq _ | .bvc _ | .bvs _ | .bpl _ | .bmi _ | .bge _ | .blt _
  | .bgt _ | .ble _ | .nop | .tap | .tpa | .inx | .dex | .clv | .sev | .clc | .sec | .cli | .sei | .sba
  | .cba | .tab | .tba | .daa | .aba | .tsx | .ins | .des | .txs | .nega | .coma | .lsra | .rora | .asra
  | .asla | .rola | .deca | .inca | .tsta | .clra | .negb | .comb | .lsrb | .rorb | .asrb | .aslb | .rolb
  | .decb | .incb | .tstb | .clrb | .illegal00 | .illegal02 | .illegal03 | .illegal04 | .illegal05
  | .illegal12 | .illegal13 | .illegal14 | .illegal15 | .illegal18 | .illegal1A | .illegal1C | .illegal1D
  | .illegal1E | .illegal1F | .illegal21 | .illegal38 | .illegal3A | .illegal3C | .illegal3D | .illegal41
  | .illegal42 | .illegal45 | .illegal4B | .illegal4E | .illegal51 | .illegal52 | .illegal55 | .illegal5B
  | .illegal5E | .illegal61 | .illegal62 | .illegal65 | .illegal6B | .illegal71 | .illegal72 | .illegal75
  | .illegal7B | .illegal83 | .illegal87 | .illegal8F | .illegal93 | .illegal9D | .illegalA3 | .illegalB3
  | .illegalC3 | .illegalC7 | .illegalCC | .illegalCD | .illegalCF | .illegalD3 | .illegalDC | .illegalDD
  | .illegalE3 | .illegalEC | .illegalED | .illegalF3 | .illegalFC | .illegalFD => []

/-- The seven bytes of the frame of R224, from `SP - 6` up to `SP`, `SP` being that before the stacking: CC, B, A, Xh, Xl, Ph,
Pl. -/
def frameBytes (s : State) : List (Word × Byte) :=
  [(s.sp - 6, s.cc.toByte), (s.sp - 5, s.b), (s.sp - 4, s.a), (s.sp - 3, byteHi s.x), (s.sp - 2, byteLo s.x),
   (s.sp - 1, byteHi s.pc), (s.sp, byteLo s.pc)]

/-- The frame of `s` can be stacked: its seven addresses are writable RAM. -/
def frameStorable (s : State) : Prop := ∀ c ∈ frameBytes s, storable s c.1

/-- The registers of `s` stand in the frame in `t`, and no other byte of RAM or ROM differs (R224). -/
def frameStacked (s t : State) : Prop :=
  (∀ c ∈ frameBytes s, peek c.1 t = some c.2) ∧
    ∀ addr, addr ∉ (frameBytes s).map (·.1) → peek addr t = peek addr s

/-- The word at an address and the next, as `t` reads it (R44). -/
def wordAt (t : State) (addr target : Word) : Prop :=
  ∃ hi lo, peek addr t = some hi ∧ peek (addr + 1) t = some lo ∧ target = joinBytes hi lo

/-- Nothing but the memory, the stack pointer, the program counter, the condition codes and the two interrupt bits differs. -/
def entryFrame (s t : State) : Prop :=
  t.a = s.a ∧ t.b = s.b ∧ t.x = s.x ∧ t.fault = s.fault ∧ t.portA = s.portA ∧ t.portB = s.portB ∧ t.cvsd = s.cvsd ∧
    t.config = s.config ∧ t.draws = s.draws

/-! The bus accesses of an entry and of a return, wherever they fall: RAM, ROM, the PIA's window or nowhere. -/

/-- Byte writes one after another; the first that faults ends them (R227). -/
def busWrites (l : List (Word × Byte)) (s : State) : Res Unit :=
  match l with
  | [] => .ok () s
  | c :: rest => (memWrite8 c.1 c.2 s).bind fun _ t => busWrites rest t

/-- Byte reads one after another; the first that faults ends them (R227). -/
def busReads (l : List Word) (s : State) : Res (List Byte) :=
  match l with
  | [] => .ok [] s
  | addr :: rest => (memRead8 addr s).bind fun v t => (busReads rest t).bind fun vs u => .ok (v :: vs) u

/-- The frame in the order it is written: from SP down, the low byte of PC first (R224, C1). -/
def frameWrites (s : State) : List (Word × Byte) := (frameBytes s).reverse

/-- `o` is the outcome of the second half of an entry from `s` (R225): the word at the vector is read, and its two reads reach
whatever answers there. PC takes the word, I is set, the two interrupt bits become `nmi` and `wait`, and nothing else differs but
what the reads reach; a fault of either is the outcome. -/
def vectorsThrough (vector : Word) (nmi wait : Bool) (s : State) (o : Host.Outcome State Fault Refusal) : Prop :=
  (∀ pc u, memRead16 vector s = .ok pc u →
    o = .next { u with cc := { s.cc with i := true }, pc := pc, nmiPending := nmi, waiWait := wait }) ∧
  ∀ e, memRead16 vector s = .fault e → o = .fault e

/-- `o` is the outcome of a whole entry from `s` (R224, R225): seven writes, then the vector. Each of the nine accesses reaches
whatever answers at its address, and the fault of any is the outcome. -/
def entersThrough (vector : Word) (nmi wait : Bool) (s : State) (o : Host.Outcome State Fault Refusal) : Prop :=
  (∀ t, busWrites (frameWrites s) s = .ok () t → vectorsThrough vector nmi wait { t with sp := s.sp - 7 } o) ∧
  ∀ e, busWrites (frameWrites s) s = .fault e → o = .fault e

/-! Reset. -/

/-- Every element but PC, the recorded fault and the model's own count of free values is as R280 leaves it, RAM being `ram`. -/
def elementsReset (c : Config) (d : ResetDraw) (ram : Memory) (t : State) : Prop :=
  t.a = d.a ∧ t.b = d.b ∧ t.x = d.x ∧ t.sp = d.sp ∧
    t.cc = { h := d.h, i := true, n := d.n, z := d.z, v := d.v, c := d.c } ∧
    t.nmiPending = false ∧ t.waiWait = false ∧ t.mem = ram ∧ t.config = c ∧
    (∀ p, t.port p = { outputRegister := 0, directionRegister := 0, controlRegister := 0, irqLatched := false
                       inputLatch := 0, controlLine1 := false, controlLine2 := false }) ∧
    t.cvsd = { shiftRegister := 0, filter := 0, state := 0 }

/-- What a read of an address gives in a machine whose ports have just been reset: RAM, ROM, or 0 in the window (R31, R32,
R238). -/
def resetByte (t : State) (addr : Word) (v : Byte) : Prop := peek addr t = some v ∨ (inWindow t addr ∧ v = 0)

/-- PC and the recorded fault as the two vector reads at the end of R280 leave them: the word at 0xFFFE and no fault, or the
BusFault of the first address that is in no region. -/
def vectorLoaded (t : State) : Prop :=
  (∀ hi lo, resetByte t 0xFFFE hi → resetByte t 0xFFFF lo → t.fault = none ∧ t.pc = joinBytes hi lo) ∧
  (resolve t.config 0xFFFE = none → t.fault = some (.busFault 0xFFFE .readUnmapped)) ∧
  (resolve t.config 0xFFFE ≠ none → resolve t.config 0xFFFF = none → t.fault = some (.busFault 0xFFFF .readUnmapped))

/-! The spec's own bit formulas, which the statements about flags use. -/

/-- The carry out of bit `k` of a sum `r` of `a` and `b` (R100: `(ak & bk) | ((ak | bk) & ~rk)`). -/
def carryOut (a b r : Byte) (k : Nat) : Bool :=
  (a.getLsbD k && b.getLsbD k) || ((a.getLsbD k || b.getLsbD k) && !r.getLsbD k)

/-- The borrow of a difference `r` of `a` and `b` (R101: `(~a7 & b7) | (b7 & r7) | (r7 & ~a7)`). -/
def borrowOut (a b r : Byte) : Bool :=
  (!a.getLsbD 7 && b.getLsbD 7) || (b.getLsbD 7 && r.getLsbD 7) || (r.getLsbD 7 && !a.getLsbD 7)

/-- The flags of an 8-bit sum `r` of `a` and `b` (R100). -/
def sumFlags (a b r : Byte) (cc : CC) : CC where
  h := carryOut a b r 3
  i := cc.i
  n := r.getLsbD 7
  z := decide (r.toNat = 0)
  v := (a.getLsbD 7 == b.getLsbD 7) && (r.getLsbD 7 != a.getLsbD 7)
  c := carryOut a b r 7

/-- The flags of an 8-bit difference `r` of `a` and `b` (R101). -/
def differenceFlags (a b r : Byte) (cc : CC) : CC where
  h := cc.h
  i := cc.i
  n := r.getLsbD 7
  z := decide (r.toNat = 0)
  v := (a.getLsbD 7 != b.getLsbD 7) && (r.getLsbD 7 == b.getLsbD 7)
  c := borrowOut a b r

/-- N and Z of a byte, V cleared, the rest kept: loads, stores, transfers and logic (R26). -/
def nzClearV (r : Byte) (cc : CC) : CC where
  h := cc.h
  i := cc.i
  n := r.getLsbD 7
  z := decide (r.toNat = 0)
  v := false
  c := cc.c

/-- N and Z of a word, V cleared, the rest kept (R26). -/
def nzClearV16 (r : Word) (cc : CC) : CC where
  h := cc.h
  i := cc.i
  n := r.getLsbD 15
  z := decide (r.toNat = 0)
  v := false
  c := cc.c

/-- The flags of a shift with result `r` and shifted-out bit `out` (R130). -/
def shiftFlags (r : Byte) (out : Bool) (cc : CC) : CC where
  h := cc.h
  i := cc.i
  n := r.getLsbD 7
  z := decide (r.toNat = 0)
  v := r.getLsbD 7 ^^ out
  c := out

/-- What R141 says of the branches in condition codes a comparison of `a` with `m` has left: BHI, BLS, BCC and BCS compare them as
unsigned numbers, BGE, BLT, BGT and BLE as signed ones, BEQ and BNE for equality. -/
def ordersOperands (a m : Byte) (cc : CC) : Prop :=
  condHolds .hi cc = decide (m.toNat < a.toNat) ∧ condHolds .ls cc = decide (a.toNat ≤ m.toNat) ∧
    condHolds .cc cc = decide (m.toNat ≤ a.toNat) ∧ condHolds .cs cc = decide (a.toNat < m.toNat) ∧
    condHolds .eq cc = decide (a = m) ∧ condHolds .ne cc = decide (a ≠ m) ∧
    condHolds .ge cc = decide (m.toInt ≤ a.toInt) ∧ condHolds .lt cc = decide (a.toInt < m.toInt) ∧
    condHolds .gt cc = decide (m.toInt < a.toInt) ∧ condHolds .le cc = decide (a.toInt ≤ m.toInt)

/-! The three shapes a statement about an instruction's result has. Each says the next state whole, so what it does not name is
unchanged, and says when the instruction faults instead. -/

/-- An operation on an accumulator and an operand: the accumulator takes `f`, the flags take `g`, both of the old accumulator, the
operand and the old flags; a fault of the operand read is the step's. -/
def computesInAcc (op : Acc → Src8 → Instr) (f : Byte → Byte → CC → Byte) (g : Byte → Byte → CC → CC) : Prop :=
  ∀ (r : Acc) (src : Src8) (s : State),
    (∀ m s1, operand8 src s = .ok m s1 →
      exec (op r src) s = .next ((s1.setAcc r (f (s.acc r) m s.cc)).setCc (g (s.acc r) m s.cc))) ∧
    (∀ e, operand8 src s = .fault e → exec (op r src) s = .fault e)

/-- An operation on an accumulator and an operand that leaves only flags. -/
def testsAcc (op : Acc → Src8 → Instr) (g : Byte → Byte → CC → CC) : Prop :=
  ∀ (r : Acc) (src : Src8) (s : State),
    (∀ m s1, operand8 src s = .ok m s1 → exec (op r src) s = .next (s1.setCc (g (s.acc r) m s.cc))) ∧
    (∀ e, operand8 src s = .fault e → exec (op r src) s = .fault e)

/-- A one-operand operation: an accumulator, or the byte at the effective address, takes `f`, and the flags take `g`, both of the
old value and the old flags. In memory it is one read and one write at the same address (R38), and a fault of either is the
step's. -/
def modifiesPlace (op : Place → Instr) (f : Byte → CC → Byte) (g : Byte → CC → CC) : Prop :=
  (∀ (r : Acc) (s : State),
    exec (op (.acc r)) s = .next ((s.setAcc r (f (s.acc r) s.cc)).setCc (g (s.acc r) s.cc))) ∧
  ∀ (m : IdxExt) (s : State),
    (∀ v s1 s2, memRead8 (effAddr m.toMem s) s = .ok v s1 →
      memWrite8 (effAddr m.toMem s) (f v s.cc) s1 = .ok () s2 → exec (op (.mem m)) s = .next (s2.setCc (g v s.cc))) ∧
    (∀ e, memRead8 (effAddr m.toMem s) s = .fault e → exec (op (.mem m)) s = .fault e) ∧
    (∀ v s1 e, memRead8 (effAddr m.toMem s) s = .ok v s1 →
      memWrite8 (effAddr m.toMem s) (f v s.cc) s1 = .fault e → exec (op (.mem m)) s = .fault e)

/-- Whether an instruction writes PC beyond the advance past its own bytes (R14, file 42, R209, R210). -/
def transfersControl : Instr → Bool
  | .bra _ | .bhi _ | .bls _ | .bcc _ | .bcs _ | .bne _ | .beq _ | .bvc _ | .bvs _ | .bpl _ | .bmi _
  | .bge _ | .blt _ | .bgt _ | .ble _ | .jmp _ | .jsr _ | .bsr _ | .rts | .swi | .rti => true
  | .illegal00 | .nop | .illegal02 | .illegal03 | .illegal04 | .illegal05 | .tap | .tpa | .inx | .dex | .clv
  | .sev | .clc | .sec | .cli | .sei | .sba | .cba | .illegal12 | .illegal13 | .illegal14 | .illegal15
  | .tab | .tba | .illegal18 | .daa | .illegal1A | .aba | .illegal1C | .illegal1D | .illegal1E | .illegal1F
  | .illegal21 | .tsx | .ins | .pula | .pulb | .des | .txs | .psha | .pshb | .illegal38 | .illegal3A
  | .illegal3C | .illegal3D | .wai | .nega | .illegal41 | .illegal42 | .coma | .lsra | .illegal45 | .rora
  | .asra | .asla | .rola | .deca | .illegal4B | .inca | .tsta | .illegal4E | .clra | .negb | .illegal51
  | .illegal52 | .comb | .lsrb | .illegal55 | .rorb | .asrb | .aslb | .rolb | .decb | .illegal5B | .incb
  | .tstb | .illegal5E | .clrb | .neg _ | .illegal61 | .illegal62 | .com _ | .lsr _ | .illegal65 | .ror _
  | .asr _ | .asl _ | .rol _ | .dec _ | .illegal6B | .inc _ | .tst _ | .clr _ | .illegal71 | .illegal72
  | .illegal75 | .illegal7B | .suba _ | .cmpa _ | .sbca _ | .illegal83 | .anda _ | .bita _ | .ldaa _
  | .illegal87 | .eora _ | .adca _ | .oraa _ | .adda _ | .cpx _ | .lds _ | .illegal8F | .illegal93 | .staa _
  | .illegal9D | .sts _ | .illegalA3 | .illegalB3 | .subb _ | .cmpb _ | .sbcb _ | .illegalC3 | .andb _
  | .bitb _ | .ldab _ | .illegalC7 | .eorb _ | .adcb _ | .orab _ | .addb _ | .illegalCC | .illegalCD
  | .ldx _ | .illegalCF | .illegalD3 | .stab _ | .illegalDC | .illegalDD | .stx _ | .illegalE3 | .illegalEC
  | .illegalED | .illegalF3 | .illegalFC | .illegalFD => false

/-- The relation R22 keeps for a port, with the two facts R236 and R246 add: the latch is the or of the two flags, flag bit 6 is
never set, and control line 1 stays 0. -/
abbrev portInv (q : Port) : Prop :=
  q.irqLatched = (q.controlRegister.getLsbD 7 || q.controlRegister.getLsbD 6) ∧
    q.controlRegister.getLsbD 6 = false ∧ q.controlLine1 = false

/-- The bounds of R251. -/
abbrev cvsdInv (c : Config) (d : Cvsd) : Prop :=
  -1 ≤ d.state ∧ d.state ≤ 1 ∧ c.cvsdFMin ≤ d.filter ∧ d.filter ≤ c.cvsdFMax

/-- RAM is in canonical form and lists addresses of RAM only. -/
def memInv (c : Config) (m : Memory) : Prop :=
  m.wf ∧ ∀ cell ∈ m, ∃ addr : Word, addr.toNat = cell.1 ∧ ∃ r, resolve c addr = some r ∧ r.owner = .ram

/-- The invariant of the machine: a legal configuration (R30, R250), canonical RAM (R21), both ports as R22 says, a wait only
in the mode that has one (R17), and, where the decoder's arithmetic is exact, the bounds of R251. -/
def machineInv (s : State) : Prop :=
  configLegal s.config ∧ memInv s.config s.mem ∧ portInv s.portA ∧ portInv s.portB ∧
    (s.waiWait = true → s.config.waiMode = .motorola) ∧
    (s.config.cvsdFloat = .exact → cvsdInv s.config s.cvsd)

/-- A host operation that draws canonical RAM, if it draws any. -/
def hostOpLegal (c : Config) : HostOp → Prop
  | .step => True
  | .drivePort _ _ => True
  | .assertNmi => True
  | .reset d => memInv c d.ram

/-- A safe run: the host's operations leave no fault recorded (R18, R286: a faulted machine is never a successful end). -/
def safeRun (ops : List HostOp) (s : State) : Prop := (runHost ops s).fault = none

end Sys2Proof.Safety
end

