-- ==== Sys2Proof/Certificates/Slice0/Obligations.lean ====
section
/-! DEFINITION. The statements for the provers. Each docstring names the rules of spec/ the statement formalises. -/

open Sys2Proof Sys2Proof.Machine Sys2Proof.Safety

/-! Encoding. -/

/-- R60, R71: no bit of an encoding is dropped. Decoding the encoding of any instruction, whatever bytes follow, gives the
instruction back and leaves those bytes. -/
def Obligations.DecodeOfEncodeIsIdentity : Prop :=
  ∀ (i : Instr) (rest : List Byte), decode (encode i ++ rest) = .instr i rest

/-- R60, R71: each instruction has one encoding. What the decoder reads from a byte sequence is what the encoder writes at its
head. -/
def Obligations.DecodedBytesAreTheEncoding : Prop :=
  ∀ (bytes : List Byte) (i : Instr) (rest : List Byte), decode bytes = .instr i rest → bytes = encode i ++ rest

/-- Words written out from R71 and the Encoding lines of files 40 to 45, one for each family and mode. -/
def Obligations.SampleWordsDecode : Prop :=
  decode [0x8B, 0xC6] = .instr (.adda (.imm 0xC6)) [] ∧
  decode [0x19] = .instr .daa [] ∧
  decode [0xBC, 0x12, 0x34] = .instr (.cpx (.mem (.ext 0x1234))) [] ∧
  decode [0x66, 0x05] = .instr (.ror (.idx 0x05)) [] ∧
  decode [0x26, 0xFA] = .instr (.bne 0xFA) [] ∧
  decode [0xAD, 0x20] = .instr (.jsr (.idx 0x20)) [] ∧
  decode [0xD7, 0x41] = .instr (.stab (.dir 0x41)) [] ∧
  decode [0xCE, 0xAB, 0xCD] = .instr (.ldx (.imm 0xABCD)) [] ∧
  decode [0x73, 0x00, 0x10] = .instr (.com (.ext 0x0010)) [] ∧
  decode [0x3E] = .instr .wai [] ∧
  decode [0x87] = .instr .illegal87 []

/-- R60, R61, R71, R73: the opcode byte alone decides the mnemonic, the mode and the length; the operand bytes only fill the operand. With
enough bytes after it no opcode byte is rejected, and the descriptor of an instruction's opcode holds that instruction's mnemonic,
mode, cycle count and validity. -/
def Obligations.OpcodeByteAloneDecides : Prop :=
  (∀ (op : Byte) (tail : List Byte), 2 ≤ tail.length →
    ∃ i, decode (op :: tail) = .instr i (tail.drop (describe op).mode.operandBytes) ∧
      i.opcode = op ∧ i.mnemonic = (describe op).mnemonic ∧ i.mode = (describe op).mode) ∧
  ∀ i : Instr, describe i.opcode = { mnemonic := i.mnemonic, mode := i.mode, cycles := i.cycles, invalid := !i.valid }

/-- R72, R221: the illegal bytes are the 59 the spec lists, an illegal byte has no operand bytes, and executing any of them ends
in IllegalOpcode with the byte and its address. -/
def Obligations.IllegalBytesStop : Prop :=
  (∀ op : Byte, (describe op).invalid = true ↔ op ∈
    [0x00#8, 0x02, 0x03, 0x04, 0x05, 0x12, 0x13, 0x14, 0x15, 0x18, 0x1A, 0x1C, 0x1D, 0x1E, 0x1F, 0x21, 0x38, 0x3A, 0x3C, 0x3D,
     0x41, 0x42, 0x45, 0x4B, 0x4E, 0x51, 0x52, 0x55, 0x5B, 0x5E, 0x61, 0x62, 0x65, 0x6B, 0x71, 0x72, 0x75, 0x7B,
     0x83, 0x87, 0x8F, 0x93, 0x9D, 0xA3, 0xB3, 0xC3, 0xC7, 0xCC, 0xCD, 0xCF, 0xD3, 0xDC, 0xDD, 0xE3, 0xEC, 0xED, 0xF3, 0xFC,
     0xFD]) ∧
  (∀ i : Instr, i.valid = false ↔ i ∈ Instr.illegalRows.map (·.2)) ∧
  ∀ c ∈ Instr.illegalRows, decode [c.1] = .instr c.2 [] ∧
    ∀ s : State, exec c.2 s = .fault (.illegalOpcode c.1 (s.pc - 1))

/-! The step. -/

/-- R226, R14, R62: with no fault, no interrupt to take and no wait, a step runs the instruction whose bytes stand at PC in RAM
or ROM, on the state with PC moved past them; and whatever the fetch reads through, the step is exec of what it fetched. -/
def Obligations.StepRunsDecodedInstruction : Prop :=
  ∀ s : State, s.fault = none → s.nmiPending = false → irqTaken s = false → s.waiWait = false →
    (∀ (bytes : List Byte) (i : Instr), decode bytes = .instr i [] →
      (∀ k, k < bytes.length → peek (s.pc + BitVec.ofNat 16 k) s = bytes[k]?) →
      step s = exec i (s.setPc (s.pc + BitVec.ofNat 16 bytes.length))) ∧
    (∀ i s1, fetchInstr s = .ok i s1 → step s = exec i s1) ∧
    (∀ e, fetchInstr s = .fault e → step s = .fault e)

/-- R228, R224, R225, R226: `assert_nmi` makes an NMI pending and changes nothing else. A pending NMI is taken whatever I is. On a
stack in RAM with a vector in RAM or ROM the frame is stacked, I is set after CC was stacked, PC is the word at 0xFFFC, the latch
falls, and nothing else differs; wherever the nine accesses fall they reach what answers there, and a fault of any is the step's. -/
def Obligations.NmiEntry : Prop :=
  (∀ s : State, assertNmi s = { s with nmiPending := true }) ∧
  ∀ s : State, s.fault = none → s.nmiPending = true → s.waiWait = false →
    (frameStorable s → readable s 0xFFFC → readable s 0xFFFD →
      ∃ t, step s = .next t ∧ frameStacked s t ∧ t.sp = s.sp - 7 ∧ t.cc = { s.cc with i := true } ∧
        wordAt t 0xFFFC t.pc ∧ t.nmiPending = false ∧ t.waiWait = false ∧ entryFrame s t) ∧
    entersThrough 0xFFFC false false { s with nmiPending := false } (step s)

/-- R226, R225, R224, R223: with no NMI, a latched port and I clear, the IRQ is taken through 0xFFF8, whichever port it is; the
latches stay as they were. On a stack in RAM with a vector in RAM or ROM the entry is whole; wherever the nine accesses fall they
reach what answers there, and a fault of any is the step's. -/
def Obligations.IrqEntry : Prop :=
  ∀ s : State, s.fault = none → s.nmiPending = false → s.waiWait = false →
    (s.portA.irqLatched = true ∨ s.portB.irqLatched = true) → s.cc.i = false →
    (frameStorable s → readable s 0xFFF8 → readable s 0xFFF9 →
      ∃ t, step s = .next t ∧ frameStacked s t ∧ t.sp = s.sp - 7 ∧ t.cc = { s.cc with i := true } ∧
        wordAt t 0xFFF8 t.pc ∧ t.nmiPending = false ∧ t.waiWait = false ∧ entryFrame s t) ∧
    entersThrough 0xFFF8 false false s (step s)

/-- R211, R226: while it waits the machine stacks nothing more: an interrupt that ends the wait keeps memory and SP, NMI going
first, its two vector reads reaching what answers there and a fault of either being the step's; with none to take the step changes
nothing. -/
def Obligations.WaitingStep : Prop :=
  ∀ s : State, s.fault = none → s.waiWait = true →
    (s.nmiPending = true →
      (readable s 0xFFFC → readable s 0xFFFD →
        ∃ pc, wordAt s 0xFFFC pc ∧
          step s = .next { s with nmiPending := false, waiWait := false, cc := { s.cc with i := true }, pc := pc }) ∧
      vectorsThrough 0xFFFC false false { s with nmiPending := false } (step s)) ∧
    (s.nmiPending = false → (s.portA.irqLatched = true ∨ s.portB.irqLatched = true) → s.cc.i = false →
      (readable s 0xFFF8 → readable s 0xFFF9 →
        ∃ pc, wordAt s 0xFFF8 pc ∧
          step s = .next { s with waiWait := false, cc := { s.cc with i := true }, pc := pc }) ∧
      vectorsThrough 0xFFF8 false false s (step s)) ∧
    (s.nmiPending = false → ((s.portA.irqLatched = false ∧ s.portB.irqLatched = false) ∨ s.cc.i = true) →
      step s = .next s)

/-- R18, R227, R286: a recorded fault is absorbing. The machine takes no step, whatever is pending, and the fault stays recorded
through every sequence of host operations without a reset. -/
def Obligations.FaultIsAbsorbing : Prop :=
  ∀ (s : State) (f : Fault), s.fault = some f →
    step s = .fault f ∧
      ∀ ops : List HostOp, (∀ op ∈ ops, ∀ d, op ≠ .reset d) → (runHost ops s).fault = some f

/-! Reset and the host. -/

/-- R280, R282, R15: what the construction of the machine and a reset of it leave in every element, for every configuration and
every value of what they leave unspecified. PC is the word at the reset vector, and a machine whose vector is not there is dead from
the start. A reset keeps RAM; that of a faulted machine, whose state is undefined, draws it anew (DEDUCED, log entry 18). What
`elementsReset` says of a machine whose vector reads have faulted is the model's choice too, since the spec leaves the state of that
machine undefined (DESIGN CHOICE, log entry 24). -/
def Obligations.ResetElements : Prop :=
  (∀ (c : Config) (d : ResetDraw), elementsReset c d d.ram (construct c d) ∧ vectorLoaded (construct c d)) ∧
  ∀ (s : State) (d : ResetDraw),
    elementsReset s.config d (if s.fault = none then s.mem else d.ram) (hostReset d s) ∧ vectorLoaded (hostReset d s)

/-- The reset state of the model: what R280 gives in configuration TC (DESIGN CHOICE, log entry 2), with the values the model chose
(DESIGN CHOICE, log entries 3 and 4) where the spec gives none: A, B, X, SP and the flags H, N, Z, V, C are zero and no byte of RAM
is listed. -/
def Obligations.ResetStateValues : Prop :=
  State.reset.cc = { h := false, i := true, n := false, z := false, v := false, c := false } ∧
    State.reset.pc = 0xF000 ∧ wordAt State.reset 0xFFFE State.reset.pc ∧
    State.reset.fault = none ∧ State.reset.nmiPending = false ∧ State.reset.waiWait = false ∧
    State.reset.portA = Port.reset ∧ State.reset.portB = Port.reset ∧ State.reset.cvsd = Cvsd.reset ∧
    State.reset.mem = [] ∧ State.reset.a = 0 ∧ State.reset.b = 0 ∧ State.reset.x = 0 ∧ State.reset.sp = 0 ∧
    State.reset.config = Config.tc

/-- R281: after I is set nothing but CLI, TAP and RTI clears it, and no step but one of those does. -/
def Obligations.OnlyThreeInstructionsUnmask : Prop :=
  (∀ (i : Instr) (s t : State), exec i s = .next t → s.cc.i = true → t.cc.i = false → i = .cli ∨ i = .tap ∨ i = .rti) ∧
  ∀ s t : State, step s = .next t → s.cc.i = true → t.cc.i = false →
    ∃ i s1, fetchInstr s = .ok i s1 ∧ (i = .cli ∨ i = .tap ∨ i = .rti)

/-- R245, R237, R240, R244: a driven byte is latched and raises the port's flag and its interrupt request, and nothing else of the
machine changes (R9); a later read of the data register gives
that byte on the input pins and the output register on the driven ones, and takes both away again. That the flag is bit 7 is the
spec's own choice (D19). -/
def Obligations.DrivePortThenRead : Prop :=
  ∀ (s : State) (p : PortId) (v : Byte),
    let t := drivePort p v s
    t = s.setPort p { s.port p with
        inputLatch := v, controlRegister := (s.port p).controlRegister ||| 0x80, irqLatched := true } ∧
      irq p t = true ∧ (t.port p).inputLatch = v ∧ (t.port p).controlRegister = (s.port p).controlRegister ||| 0x80 ∧
      (∀ q, q ≠ p → t.port q = s.port q) ∧ t.mem = s.mem ∧ t.cvsd = s.cvsd ∧
      ((s.port p).controlRegister.getLsbD 2 = true → ∀ r addr, resolve s.config addr = some r → r.owner = .pia →
        addr = r.lo + (if p = .a then 0 else 2) →
        ∃ w u, memRead8 addr t = .ok w u ∧ irq p u = false ∧
          ∀ k, k < 8 → w.getLsbD k =
            (if (s.port p).directionRegister.getLsbD k then (s.port p).outputRegister.getLsbD k else v.getLsbD k))

/-! Memory. -/

/-- R30: in a legal map an address resolves to the one region that holds it, and to none exactly where no region holds it. -/
def Obligations.ResolveIsUnique : Prop :=
  ∀ (c : Config) (addr : Word), mapLegal c →
    (∀ r ∈ c.regions, r.lo.toNat ≤ addr.toNat → addr.toNat ≤ r.hi.toNat → resolve c addr = some r) ∧
    (resolve c addr = none ↔ ∀ r ∈ c.regions, addr.toNat < r.lo.toNat ∨ r.hi.toNat < addr.toNat)

/-- R34, R31, R32: a bus read by the owner of its region. -/
def Obligations.BusRead : Prop :=
  ∀ (s : State) (addr : Word),
    (resolve s.config addr = none → memRead8 addr s = .fault (.busFault addr .readUnmapped)) ∧
    ∀ r, resolve s.config addr = some r →
      (r.owner = .ram → memRead8 addr s = .ok (s.mem.read addr.toNat) s) ∧
      (∀ k, r.owner = .rom k →
        memRead8 addr s = .ok ((romImage s.config k).read (r.baseOffset + (addr - r.lo).toNat)) s) ∧
      (r.owner = .pia → ∃ v t, piaRead (addr - r.lo).toNat s = (v, t) ∧ memRead8 addr s = .ok v t)

/-- R35, R31, R32: a bus write by the owner of its region. A byte of RAM is replaced and every other byte of RAM and ROM reads as
before. -/
def Obligations.BusWrite : Prop :=
  ∀ (s : State) (addr : Word) (v : Byte),
    (resolve s.config addr = none → memWrite8 addr v s = .fault (.busFault addr .writeUnmapped)) ∧
    ∀ r, resolve s.config addr = some r →
      (r.writable = false → memWrite8 addr v s = .fault (.busFault addr .writeToRom)) ∧
      (r.writable = true → r.owner = .pia → memWrite8 addr v s = .ok () (piaWrite (addr - r.lo).toNat v s)) ∧
      (r.writable = true → r.owner = .ram →
        ∃ t, memWrite8 addr v s = .ok () t ∧ peek addr t = some v ∧ (∀ a, a ≠ addr → peek a t = peek a s) ∧
          t = { s with mem := t.mem })

/-- R36, R37, R44: a word is two bytes, the more significant at the lower address, the address after 0xFFFF being 0x0000; a stored
word reads back, and the second byte may fault after the first. -/
def Obligations.WordAccess : Prop :=
  (∀ (s : State) (addr v : Word), storable s addr → storable s (addr + 1) →
    ∃ t, memWrite16 addr v s = .ok () t ∧
      peek addr t = some (BitVec.ofNat 8 (v.toNat / 256)) ∧ peek (addr + 1) t = some (BitVec.ofNat 8 v.toNat) ∧
      (∀ a, a ≠ addr → a ≠ addr + 1 → peek a t = peek a s) ∧ t = { s with mem := t.mem } ∧
      memRead16 addr t = .ok v t) ∧
  (∀ (s s1 : State) (addr v : Word), memWrite8 addr (BitVec.ofNat 8 (v.toNat / 256)) s = .ok () s1 →
    resolve s.config (addr + 1) = none → memWrite16 addr v s = .fault (.busFault (addr + 1) .writeUnmapped)) ∧
  (∀ (s s1 : State) (addr : Word) (v : Byte), memRead8 addr s = .ok v s1 →
    resolve s.config (addr + 1) = none → memRead16 addr s = .fault (.busFault (addr + 1) .readUnmapped))

/-- R40 to R43: a push writes at SP and then decrements it, a pull increments it and then reads; a pushed word stands big-endian
from the new SP plus one; and a pull after a push gives the value back and SP as it was. -/
def Obligations.PushThenPull : Prop :=
  (∀ (s : State) (v : Byte), storable s s.sp →
    ∃ t, push8 v s = .ok () t ∧ t.sp = s.sp - 1 ∧ peek s.sp t = some v ∧ (∀ a, a ≠ s.sp → peek a t = peek a s) ∧
      t = { s with mem := t.mem, sp := t.sp } ∧ pull8 t = .ok v { t with sp := s.sp }) ∧
  (∀ (s : State) (v : Word), storable s s.sp → storable s (s.sp - 1) →
    ∃ t, push16 v s = .ok () t ∧ t.sp = s.sp - 2 ∧ peek (t.sp + 1) t = some (BitVec.ofNat 8 (v.toNat / 256)) ∧
      peek (t.sp + 2) t = some (BitVec.ofNat 8 v.toNat) ∧
      (∀ a, a ≠ s.sp → a ≠ s.sp - 1 → peek a t = peek a s) ∧
      t = { s with mem := t.mem, sp := t.sp } ∧ pull16 t = .ok v { t with sp := s.sp })

/-- R64 to R67, R69: the operand of each mode. An immediate is the operand; a direct address is below 0x0100; an indexed one is X
plus the unsigned offset modulo 2^16; a 16-bit operand is the bytes at the address and the next. -/
def Obligations.OperandOfEachMode : Prop :=
  (∀ (v : Byte) (s : State), operand8 (.imm v) s = .ok v s) ∧
  (∀ (v : Word) (s : State), operand16 (.imm v) s = .ok v s) ∧
  (∀ (a : Byte) (s : State), (effAddr (.dir a) s).toNat = a.toNat) ∧
  (∀ (off : Byte) (s : State), (effAddr (.idx off) s).toNat = (s.x.toNat + off.toNat) % 65536) ∧
  (∀ (a : Word) (s : State), effAddr (.ext a) s = a) ∧
  (∀ (m : Mem) (s : State) (v : Byte), peek (effAddr m s) s = some v → operand8 (.mem m) s = .ok v s) ∧
  (∀ (m : Mem) (s : State) (hi lo : Byte), peek (effAddr m s) s = some hi → peek (effAddr m s + 1) s = some lo →
    ∃ w : Word, w.toNat = 256 * hi.toNat + lo.toNat ∧ operand16 (.mem m) s = .ok w s)

/-! The PIA and the decoder. -/

/-- R235, R237, R238, R240: a read in the window. The control register and the direction register read without effect; the data
register merges output and input pins, and the read clears that port's flags and latch and leaves the other port alone. -/
def Obligations.PiaRegisterRead : Prop :=
  ∀ (s : State) (r : Region) (p : PortId) (addr : Word), resolve s.config addr = some r → r.owner = .pia →
    (addr = r.lo + (if p = .a then 1 else 3) → memRead8 addr s = .ok (s.port p).controlRegister s) ∧
    (addr = r.lo + (if p = .a then 0 else 2) → (s.port p).controlRegister.getLsbD 2 = false →
      memRead8 addr s = .ok (s.port p).directionRegister s) ∧
    (addr = r.lo + (if p = .a then 0 else 2) → (s.port p).controlRegister.getLsbD 2 = true →
      ∃ t, memRead8 addr s =
          .ok (((s.port p).outputRegister &&& (s.port p).directionRegister) |||
            ((s.port p).inputLatch &&& ~~~(s.port p).directionRegister)) t ∧
        (∀ k, (t.port p).controlRegister.getLsbD k = (decide (k < 6) && (s.port p).controlRegister.getLsbD k)) ∧
        t.port p = { s.port p with controlRegister := (t.port p).controlRegister, irqLatched := false } ∧
        (∀ q, q ≠ p → t.port q = s.port q) ∧ t = { s with portA := t.portA, portB := t.portB })

/-- R235, R239, R241, R242: a write in the window. The byte goes to the direction or the output register as bit 2 of the control
register says; a control-register write stores bits 5:0, keeps the flags, and moves C2 only when bits 5:4 are both 1. That C2 keeps
its level otherwise is the spec's reading (D20; DEDUCED, log entry 16). -/
def Obligations.PiaRegisterWrite : Prop :=
  ∀ (s : State) (r : Region) (p : PortId) (addr : Word) (v : Byte),
    resolve s.config addr = some r → r.owner = .pia → r.writable = true →
    (addr = r.lo + (if p = .a then 0 else 2) →
      memWrite8 addr v s = .ok () (s.setPort p
        (if (s.port p).controlRegister.getLsbD 2 then { s.port p with outputRegister := v }
         else { s.port p with directionRegister := v }))) ∧
    (addr = r.lo + (if p = .a then 1 else 3) →
      ∃ t, memWrite8 addr v s = .ok () t ∧
        (∀ k, (t.port p).controlRegister.getLsbD k =
          (if k < 6 then v.getLsbD k else (s.port p).controlRegister.getLsbD k)) ∧
        (t.port p).controlLine2 = (if v.getLsbD 5 && v.getLsbD 4 then v.getLsbD 3 else (s.port p).controlLine2) ∧
        t.port p = { s.port p with
          controlRegister := (t.port p).controlRegister, controlLine2 := (t.port p).controlLine2 } ∧
        (∀ q, q ≠ p → t.port q = s.port q) ∧ t = { s with portA := t.portA, portB := t.portB, cvsd := t.cvsd })

/-- R243, R242, R241: the decoder is fed exactly when a write to port B's control register finds C2 of port B at 0 and leaves it at
1, and it is fed the level of port A's C2; a write to port A's control register or to a data register never feeds it. That a write
with bit 5 or bit 4 clear leaves C2, and so feeds nothing, is the spec's own reading (R242, D20; DEDUCED, log entry 16). -/
def Obligations.RisingEdgeFeedsDecoder : Prop :=
  ∀ (s t : State) (r : Region) (addr : Word) (v : Byte),
    resolve s.config addr = some r → r.owner = .pia → memWrite8 addr v s = .ok () t →
    (addr = r.lo + 3 → s.portB.controlLine2 = false → v.getLsbD 5 = true → v.getLsbD 4 = true → v.getLsbD 3 = true →
      t.cvsd = cvsdAddBit s.config s.portA.controlLine2 s.cvsd) ∧
    (addr = r.lo + 3 →
      (s.portB.controlLine2 = true ∨ v.getLsbD 5 = false ∨ v.getLsbD 4 = false ∨ v.getLsbD 3 = false) → t.cvsd = s.cvsd) ∧
    (addr = r.lo ∨ addr = r.lo + 1 ∨ addr = r.lo + 2 → t.cvsd = s.cvsd)

/-- R250: one bit fed to the decoder, in the real arithmetic the rule is written in. -/
def Obligations.CvsdAddBitFormula : Prop :=
  ∀ (c : Config) (bit : Bool) (d : Cvsd), c.cvsdFloat = .exact →
    let shift := (2 * d.shiftRegister.toNat + bit.toNat) % 8
    let filter := if shift = 7 then d.filter + (c.cvsdFMax - d.filter) / 2
      else if shift = 0 then d.filter + (c.cvsdFMin - d.filter) / 2 else d.filter
    (cvsdAddBit c bit d).shiftRegister.toNat = shift ∧
      (cvsdAddBit c bit d).filter = filter * c.cvsdFilterLeak ∧
      (cvsdAddBit c bit d).state = min 1 (max (-1) (d.state + filter)) * c.cvsdStateLeak

/-- R251: every bit keeps the decoder within its bounds, in real arithmetic with legal constants. -/
def Obligations.CvsdStaysBounded : Prop :=
  ∀ (c : Config) (bit : Bool) (d : Cvsd), c.cvsdFloat = .exact → cvsdLegal c → cvsdInv c d → cvsdInv c (cvsdAddBit c bit d)

/-- R253, with the strict inequality: fed ones without end, the decoder from any state within its bounds reaches the clamp within a
number of bits that depends on the constants alone, and from then on ends every bit at exactly the state leak; fed zeros, the
mirror image. At equality of the two sides the clamp is only approached, so the statement asks for more (DEDUCED, log entry 22). -/
def Obligations.CvsdConstantStreamConverges : Prop :=
  ∀ c : Config, c.cvsdFloat = .exact → cvsdLegal c →
    (1 - c.cvsdStateLeak < c.cvsdFMax / (2 - c.cvsdFilterLeak) →
      ∃ n : Nat, ∀ d : Cvsd, cvsdInv c d → ∀ k, n ≤ k → ((cvsdAddBit c true)^[k] d).state = c.cvsdStateLeak) ∧
    (1 - c.cvsdStateLeak < -c.cvsdFMin / (2 - c.cvsdFilterLeak) →
      ∃ n : Nat, ∀ d : Cvsd, cvsdInv c d → ∀ k, n ≤ k → ((cvsdAddBit c false)^[k] d).state = -c.cvsdStateLeak)

/-! Arithmetic. -/

/-- R100: addition and its flags, in every formula the rule gives. -/
def Obligations.AddFunction : Prop :=
  ∀ (a b : Byte) (cin : Bool) (cc : CC),
    let r := add8 a b cin cc
    let s := a.toNat + b.toNat + cin.toNat
    r.value.toNat = s % 256 ∧ r.cc = sumFlags a b r.value cc ∧
      r.cc.c = s.testBit 8 ∧ r.cc.h = decide (a.toNat % 16 + b.toNat % 16 + cin.toNat ≥ 16)

/-- R101: subtraction and its flags, in every formula the rule gives; H is kept. -/
def Obligations.SubFunction : Prop :=
  ∀ (a b : Byte) (bin : Bool) (cc : CC),
    let r := sub8 a b bin cc
    let d : Int := a.toNat - b.toNat - bin.toNat
    (r.value.toNat : Int) = d % 256 ∧ r.cc = differenceFlags a b r.value cc ∧ r.cc.c = decide (d < 0)

/-- R103, R104, R106, R107, R109: ADD, ADC, SUB, SBC and CMP in their forty forms. CMP keeps the accumulator. -/
def Obligations.AddSubtractCompareResults : Prop :=
  computesInAcc Instr.addOf (fun a m _ => a + m) (fun a m cc => sumFlags a m (a + m) cc) ∧
  computesInAcc Instr.adcOf (fun a m cc => a + m + (if cc.c then 1 else 0))
    (fun a m cc => sumFlags a m (a + m + (if cc.c then 1 else 0)) cc) ∧
  computesInAcc Instr.subOf (fun a m _ => a - m) (fun a m cc => differenceFlags a m (a - m) cc) ∧
  computesInAcc Instr.sbcOf (fun a m cc => a - m - (if cc.c then 1 else 0))
    (fun a m cc => differenceFlags a m (a - m - (if cc.c then 1 else 0)) cc) ∧
  testsAcc Instr.cmpOf (fun a m cc => differenceFlags a m (a - m) cc)

/-- R105, R108, R110, R116 to R119, R176 to R179: the instructions on registers alone. ABA, SBA and CBA on the two accumulators;
INX, DEX, INS and DES modulo 2^16, of which the first two write Z and no other flag; TAB, TBA, TSX and TXS. -/
def Obligations.RegisterOnlyResults : Prop :=
  ∀ s : State,
    exec .aba s = .next ((s.setA (s.a + s.b)).setCc (sumFlags s.a s.b (s.a + s.b) s.cc)) ∧
    exec .sba s = .next ((s.setA (s.a - s.b)).setCc (differenceFlags s.a s.b (s.a - s.b) s.cc)) ∧
    exec .cba s = .next (s.setCc (differenceFlags s.a s.b (s.a - s.b) s.cc)) ∧
    exec .inx s = .next { s with x := BitVec.ofNat 16 (s.x.toNat + 1), cc := { s.cc with z := decide (s.x = 0xFFFF) } } ∧
    exec .dex s = .next { s with x := BitVec.ofNat 16 (s.x.toNat + 65535), cc := { s.cc with z := decide (s.x = 0x0001) } } ∧
    exec .ins s = .next { s with sp := BitVec.ofNat 16 (s.sp.toNat + 1) } ∧
    exec .des s = .next { s with sp := BitVec.ofNat 16 (s.sp.toNat + 65535) } ∧
    exec .tab s = .next { s with b := s.a, cc := nzClearV s.a s.cc } ∧
    exec .tba s = .next { s with a := s.b, cc := nzClearV s.b s.cc } ∧
    exec .tsx s = .next { s with x := BitVec.ofNat 16 (s.sp.toNat + 1) } ∧
    exec .txs s = .next { s with sp := BitVec.ofNat 16 (s.x.toNat + 65535) }

/-- R111, R112, R113: NEG, INC and DEC in their twelve forms; INC and DEC keep C. -/
def Obligations.NegIncDecResults : Prop :=
  modifiesPlace Instr.negOf (fun v _ => 0 - v)
    (fun v cc => { cc with n := (0 - v).getLsbD 7, z := decide (v = 0), v := decide (0 - v = 0x80), c := decide (0 - v ≠ 0) }) ∧
  modifiesPlace Instr.incOf (fun v _ => BitVec.ofNat 8 (v.toNat + 1))
    (fun v cc => { cc with n := (v + 1).getLsbD 7, z := decide (v = 0xFF), v := decide (v = 0x7F) }) ∧
  modifiesPlace Instr.decOf (fun v _ => BitVec.ofNat 8 (v.toNat + 255))
    (fun v cc => { cc with n := (v - 1).getLsbD 7, z := decide (v = 0x01), v := decide (v = 0x80) })

/-- R114: DAA, for every A, H and C. V is a free value, drawn anew (U3): the statement holds whatever it is. -/
def Obligations.DaaResult : Prop :=
  ∀ s : State,
    let lsn := (s.a &&& 0x0F).toNat
    let msn := (s.a >>> 4).toNat
    let cf := (if 9 < lsn ∨ s.cc.h = true then 6 else 0) + (if 9 < msn ∨ s.cc.c = true ∨ (8 < msn ∧ 9 < lsn) then 0x60 else 0)
    let t := s.a.toNat + cf
    ∃ (r : Byte) (v : Bool), r.toNat = t % 256 ∧ v = Config.freeBit s.draws ∧
      exec .daa s = .next { s with
        a := r
        cc := { s.cc with n := r.getLsbD 7, z := decide (r.toNat = 0), v := v, c := s.cc.c || t.testBit 8 }
        draws := s.draws + 1 }

/-- R114, R103: DAA after ADDA does decimal addition: of two bytes of two decimal digits each, A becomes the two low digits of the
sum and C its hundreds. -/
def Obligations.DaaAfterAddIsDecimal : Prop :=
  ∀ (s : State) (x y : Nat), x < 100 → y < 100 → s.a.toNat = 16 * (x / 10) + x % 10 →
    ∃ t u, exec (.adda (.imm (BitVec.ofNat 8 (16 * (y / 10) + y % 10)))) s = .next t ∧ exec .daa t = .next u ∧
      u.a.toNat = 16 * ((x + y) % 100 / 10) + (x + y) % 10 ∧ u.cc.c = decide (100 ≤ x + y)

/-- R115: CPX in its four forms. Z from the whole words, N and V from the high bytes alone, C kept. -/
def Obligations.CpxResult : Prop :=
  ∀ (src : Src16) (s : State),
    (∀ m s1, operand16 src s = .ok m s1 →
      let d := (s.x.toNat / 256 + 256 - m.toNat / 256) % 256
      exec (.cpx src) s = .next (s1.setCc { s.cc with
        n := decide (128 ≤ d), z := decide (s.x = m)
        v := (s.x.getLsbD 15 != m.getLsbD 15) && (decide (128 ≤ d) == m.getLsbD 15) })) ∧
    (∀ e, operand16 src s = .fault e → exec (.cpx src) s = .fault e)

/-! Shifts and rotates. -/

/-- R130 to R135: the five shifts and rotates in their twenty forms, by one bit; V is N xor the new C. -/
def Obligations.ShiftAndRotateResults : Prop :=
  modifiesPlace Instr.aslOf (fun v _ => BitVec.ofNat 8 (2 * v.toNat))
    (fun v cc => shiftFlags (BitVec.ofNat 8 (2 * v.toNat)) (decide (128 ≤ v.toNat)) cc) ∧
  modifiesPlace Instr.asrOf (fun v _ => BitVec.ofNat 8 (v.toNat / 2 + (if 128 ≤ v.toNat then 128 else 0)))
    (fun v cc => shiftFlags (BitVec.ofNat 8 (v.toNat / 2 + (if 128 ≤ v.toNat then 128 else 0)))
      (decide (v.toNat % 2 = 1)) cc) ∧
  modifiesPlace Instr.lsrOf (fun v _ => BitVec.ofNat 8 (v.toNat / 2))
    (fun v cc => shiftFlags (BitVec.ofNat 8 (v.toNat / 2)) (decide (v.toNat % 2 = 1)) cc) ∧
  modifiesPlace Instr.rolOf (fun v cc => BitVec.ofNat 8 (2 * v.toNat + cc.c.toNat))
    (fun v cc => shiftFlags (BitVec.ofNat 8 (2 * v.toNat + cc.c.toNat)) (decide (128 ≤ v.toNat)) cc) ∧
  modifiesPlace Instr.rorOf (fun v cc => BitVec.ofNat 8 (v.toNat / 2 + 128 * cc.c.toNat))
    (fun v cc => shiftFlags (BitVec.ofNat 8 (v.toNat / 2 + 128 * cc.c.toNat)) (decide (v.toNat % 2 = 1)) cc)

/-! Branches, jumps, calls. -/

/-- R140, R141: each branch adds its signed offset to PC exactly on its condition, and writes nothing else. -/
def Obligations.BranchResults : Prop :=
  ∀ (s : State) (rel : Byte), ∀ c ∈
    [(Cond.always, true), (.hi, !s.cc.c && !s.cc.z), (.ls, s.cc.c || s.cc.z), (.cc, !s.cc.c), (.cs, s.cc.c),
     (.ne, !s.cc.z), (.eq, s.cc.z), (.vc, !s.cc.v), (.vs, s.cc.v), (.pl, !s.cc.n), (.mi, s.cc.n),
     (.ge, s.cc.n == s.cc.v), (.lt, s.cc.n != s.cc.v), (.gt, !s.cc.z && (s.cc.n == s.cc.v)),
     (.le, s.cc.z || (s.cc.n != s.cc.v))],
    exec (Instr.branchOf c.1 rel) s =
      .next (if c.2 then s.setPc (BitVec.ofInt 16 (s.pc.toNat + rel.toInt)) else s)

/-- R141: after a CMP or a SUB that completes, in any of its forms, the branches order the accumulator as it was and the operand,
and after a CBA or an SBA they order A and B as they were. -/
def Obligations.BranchesAfterCompare : Prop :=
  (∀ (r : Acc) (src : Src8) (s s1 t : State) (m : Byte), operand8 src s = .ok m s1 →
    (exec (Instr.cmpOf r src) s = .next t ∨ exec (Instr.subOf r src) s = .next t) → ordersOperands (s.acc r) m t.cc) ∧
  ∀ s t : State, (exec .cba s = .next t ∨ exec .sba s = .next t) → ordersOperands s.a s.b t.cc

/-- R157, R159: BSR and JSR push the address of the next instruction, low byte at SP, and go to the target; JSR's address is
resolved before the push. Where the stack is not RAM the bus decides, and its fault is the step's. -/
def Obligations.CallResults : Prop :=
  ∀ s : State,
    (storable s s.sp → storable s (s.sp - 1) →
      ∃ t, peek s.sp t = some (BitVec.ofNat 8 s.pc.toNat) ∧ peek (s.sp - 1) t = some (BitVec.ofNat 8 (s.pc.toNat / 256)) ∧
        (∀ a, a ≠ s.sp → a ≠ s.sp - 1 → peek a t = peek a s) ∧ t = { s with mem := t.mem, sp := s.sp - 2 } ∧
        (∀ rel, exec (.bsr rel) s = .next { t with pc := BitVec.ofInt 16 (s.pc.toNat + rel.toInt) }) ∧
        (∀ ea, exec (.jsr ea) s = .next { t with pc := effAddr ea.toMem s })) ∧
    (∀ t, push16 s.pc s = .ok () t →
      (∀ rel, exec (.bsr rel) s = .next { t with pc := BitVec.ofInt 16 (s.pc.toNat + rel.toInt) }) ∧
      (∀ ea, exec (.jsr ea) s = .next { t with pc := effAddr ea.toMem s })) ∧
    (∀ e, push16 s.pc s = .fault e → (∀ rel, exec (.bsr rel) s = .fault e) ∧ (∀ ea, exec (.jsr ea) s = .fault e))

/-- R158, R160: JMP goes to its effective address without reading there; RTS pulls PC, the high byte first; a fault of the pull is
the step's. -/
def Obligations.JumpAndReturnResults : Prop :=
  (∀ (off : Byte) (s : State), exec (.jmp (.idx off)) s = .next { s with pc := BitVec.ofNat 16 (s.x.toNat + off.toNat) }) ∧
  (∀ (addr : Word) (s : State), exec (.jmp (.ext addr)) s = .next { s with pc := addr }) ∧
  (∀ (s : State) (hi lo : Byte), peek (s.sp + 1) s = some hi → peek (s.sp + 2) s = some lo →
    exec .rts s = .next { s with sp := s.sp + 2, pc := BitVec.ofNat 16 (256 * hi.toNat + lo.toNat) }) ∧
  ∀ s : State, (∀ v t, pull16 s = .ok v t → exec .rts s = .next { t with pc := v }) ∧
    (∀ e, pull16 s = .fault e → exec .rts s = .fault e)

/-! Loads, stores, transfers, the stack. -/

/-- R170, R190 to R193: LDA, AND, ORA, EOR and BIT in their forty forms. BIT keeps the accumulator. -/
def Obligations.LoadAndLogicResults : Prop :=
  computesInAcc Instr.ldaOf (fun _ m _ => m) (fun _ m cc => nzClearV m cc) ∧
  computesInAcc Instr.andOf (fun a m _ => a &&& m) (fun a m cc => nzClearV (a &&& m) cc) ∧
  computesInAcc Instr.oraOf (fun a m _ => a ||| m) (fun a m cc => nzClearV (a ||| m) cc) ∧
  computesInAcc Instr.eorOf (fun a m _ => a ^^^ m) (fun a m cc => nzClearV (a ^^^ m) cc) ∧
  testsAcc Instr.bitOf (fun a m cc => nzClearV (a &&& m) cc)

/-- R171: STA in its six forms. On RAM the byte is stored at the effective address and nowhere else; elsewhere the bus write
decides, and the destination is not read. -/
def Obligations.StaResults : Prop :=
  ∀ (r : Acc) (m : Mem) (s : State),
    (storable s (effAddr m s) →
      ∃ t, exec (Instr.staOf r m) s = .next t ∧ peek (effAddr m s) t = some (s.acc r) ∧
        (∀ a, a ≠ effAddr m s → peek a t = peek a s) ∧ t = { s with mem := t.mem, cc := nzClearV (s.acc r) s.cc }) ∧
    (∀ t, memWrite8 (effAddr m s) (s.acc r) s = .ok () t →
      exec (Instr.staOf r m) s = .next (t.setCc (nzClearV (s.acc r) s.cc))) ∧
    (∀ e, memWrite8 (effAddr m s) (s.acc r) s = .fault e → exec (Instr.staOf r m) s = .fault e)

/-- R172, R173: LDX and LDS in their eight forms; the address of an indexed LDX comes from the old X. -/
def Obligations.WordLoadResults : Prop :=
  ∀ (src : Src16) (s : State),
    (∀ m s1, operand16 src s = .ok m s1 →
      exec (.ldx src) s = .next { s1 with x := m, cc := nzClearV16 m s.cc } ∧
      exec (.lds src) s = .next { s1 with sp := m, cc := nzClearV16 m s.cc }) ∧
    (∀ e, operand16 src s = .fault e → exec (.ldx src) s = .fault e ∧ exec (.lds src) s = .fault e)

/-- R174, R175: STX and STS in their six forms. On RAM the high byte is stored at the effective address and the low byte at the
next, and nowhere else; elsewhere the bus write decides. -/
def Obligations.WordStoreResults : Prop :=
  ∀ (m : Mem) (s : State), ∀ c ∈ [(Instr.stx m, s.x), (Instr.sts m, s.sp)],
    (storable s (effAddr m s) → storable s (effAddr m s + 1) →
      ∃ t, exec c.1 s = .next t ∧ peek (effAddr m s) t = some (BitVec.ofNat 8 (c.2.toNat / 256)) ∧
        peek (effAddr m s + 1) t = some (BitVec.ofNat 8 c.2.toNat) ∧
        (∀ a, a ≠ effAddr m s → a ≠ effAddr m s + 1 → peek a t = peek a s) ∧
        t = { s with mem := t.mem, cc := nzClearV16 c.2 s.cc }) ∧
    (∀ t, memWrite16 (effAddr m s) c.2 s = .ok () t → exec c.1 s = .next (t.setCc (nzClearV16 c.2 s.cc))) ∧
    (∀ e, memWrite16 (effAddr m s) c.2 s = .fault e → exec c.1 s = .fault e)

/-- R180, R181: PSH and PUL in their four forms; no flag is written. On RAM the byte goes to SP and nowhere else, and the pulled
byte is the one above SP; elsewhere the bus decides, and its fault is the step's. -/
def Obligations.PushPullResults : Prop :=
  ∀ (r : Acc) (s : State),
    (storable s s.sp →
      ∃ t, exec (Instr.pshOf r) s = .next t ∧ peek s.sp t = some (s.acc r) ∧ (∀ a, a ≠ s.sp → peek a t = peek a s) ∧
        t = { s with mem := t.mem, sp := s.sp - 1 }) ∧
    (∀ t, memWrite8 s.sp (s.acc r) s = .ok () t → exec (Instr.pshOf r) s = .next (t.setSp (s.sp - 1))) ∧
    (∀ e, memWrite8 s.sp (s.acc r) s = .fault e → exec (Instr.pshOf r) s = .fault e) ∧
    (∀ v, peek (s.sp + 1) s = some v → exec (Instr.pulOf r) s = .next ((s.setSp (s.sp + 1)).setAcc r v)) ∧
    (∀ v t, memRead8 (s.sp + 1) s = .ok v t → exec (Instr.pulOf r) s = .next ((t.setSp (s.sp + 1)).setAcc r v)) ∧
    (∀ e, memRead8 (s.sp + 1) s = .fault e → exec (Instr.pulOf r) s = .fault e)

/-! Logic, test, clear. -/

/-- R194, R195: COM and TST in their eight forms. COM sets C; TST clears it and writes nothing back. -/
def Obligations.ComAndTstResults : Prop :=
  modifiesPlace Instr.comOf (fun v _ => BitVec.ofNat 8 (255 - v.toNat))
    (fun v cc => { nzClearV (~~~v) cc with c := true }) ∧
  (∀ (r : Acc) (s : State),
    exec (Instr.tstOf (.acc r)) s = .next (s.setCc { nzClearV (s.acc r) s.cc with c := false })) ∧
  ∀ (m : IdxExt) (s : State),
    (∀ v s1, memRead8 (effAddr m.toMem s) s = .ok v s1 →
      exec (Instr.tstOf (.mem m)) s = .next (s1.setCc { nzClearV v s.cc with c := false })) ∧
    (∀ e, memRead8 (effAddr m.toMem s) s = .fault e → exec (Instr.tstOf (.mem m)) s = .fault e)

/-- R196: CLR in its four forms, with and without the read of the operand that `CLR_READS_OPERAND` asks for; a fault of either
access is the step's. -/
def Obligations.ClrResults : Prop :=
  (∀ (r : Acc) (s : State),
    exec (Instr.clrOf (.acc r)) s =
      .next ((s.setAcc r 0).setCc { s.cc with n := false, z := true, v := false, c := false })) ∧
  ∀ (m : IdxExt) (s : State),
    (storable s (effAddr m.toMem s) →
      ∃ t, exec (.clr m) s = .next t ∧ peek (effAddr m.toMem s) t = some 0 ∧
        (∀ a, a ≠ effAddr m.toMem s → peek a t = peek a s) ∧
        t = { s with mem := t.mem, cc := { s.cc with n := false, z := true, v := false, c := false } }) ∧
    (s.config.clrReadsOperand = true → ∀ e, memRead8 (effAddr m.toMem s) s = .fault e → exec (.clr m) s = .fault e) ∧
    (∀ s1, (if s.config.clrReadsOperand then ∃ v, memRead8 (effAddr m.toMem s) s = .ok v s1 else s1 = s) →
      (∀ t, memWrite8 (effAddr m.toMem s) 0 s1 = .ok () t →
        exec (.clr m) s = .next (t.setCc { s.cc with n := false, z := true, v := false, c := false })) ∧
      (∀ e, memWrite8 (effAddr m.toMem s) 0 s1 = .fault e → exec (.clr m) s = .fault e))

/-! Condition codes and the interrupt instructions. -/

/-- R200 to R208, R13: the six flag instructions write their one flag; NOP writes nothing; TAP takes bits 5:0 of A; TPA gives the
flags with bits 7:6 reading 1. -/
def Obligations.FlagInstructionResults : Prop :=
  ∀ s : State,
    exec .clc s = .next { s with cc := { s.cc with c := false } } ∧
    exec .sec s = .next { s with cc := { s.cc with c := true } } ∧
    exec .clv s = .next { s with cc := { s.cc with v := false } } ∧
    exec .sev s = .next { s with cc := { s.cc with v := true } } ∧
    exec .cli s = .next { s with cc := { s.cc with i := false } } ∧
    exec .sei s = .next { s with cc := { s.cc with i := true } } ∧
    exec .nop s = .next s ∧
    exec .tap s = .next { s with cc :=
      { h := s.a.getLsbD 5, i := s.a.getLsbD 4, n := s.a.getLsbD 3, z := s.a.getLsbD 2, v := s.a.getLsbD 1
        c := s.a.getLsbD 0 } } ∧
    ∃ r : Byte, exec .tpa s = .next { s with a := r } ∧
      r.toNat = 0xC0 + 32 * s.cc.h.toNat + 16 * s.cc.i.toNat + 8 * s.cc.n.toNat + 4 * s.cc.z.toNat + 2 * s.cc.v.toNat +
        s.cc.c.toNat

/-- R209, R224, R225: SWI is taken whatever I is, through 0xFFFA; the stacked CC holds the old I, and PC is the address after the
opcode. On a stack in RAM with a vector in RAM or ROM the entry is whole; wherever the nine accesses fall they reach what answers
there, and a fault of any is the instruction's. -/
def Obligations.SwiEntry : Prop :=
  ∀ s : State,
    (frameStorable s → readable s 0xFFFA → readable s 0xFFFB →
      ∃ t, exec .swi s = .next t ∧ frameStacked s t ∧ t.sp = s.sp - 7 ∧ t.cc = { s.cc with i := true } ∧
        wordAt t 0xFFFA t.pc ∧ t.nmiPending = s.nmiPending ∧ t.waiWait = s.waiWait ∧ entryFrame s t) ∧
    entersThrough 0xFFFA s.nmiPending s.waiWait s (exec .swi s)

/-- R211, R222, R224: WAI stacks the frame and waits, keeping every flag; wherever its seven writes fall they reach what answers
there, and a fault of any is the instruction's. In a machine with `WAI_MODE = fault` it raises UnimplementedOpcode. -/
def Obligations.WaiResult : Prop :=
  ∀ s : State,
    (s.config.waiMode = .motorola →
      (frameStorable s →
        ∃ t, exec .wai s = .next t ∧ frameStacked s t ∧ t.sp = s.sp - 7 ∧ t.cc = s.cc ∧ t.pc = s.pc ∧
          t.nmiPending = s.nmiPending ∧ t.waiWait = true ∧ entryFrame s t) ∧
      (∀ t, busWrites (frameWrites s) s = .ok () t → exec .wai s = .next { t with sp := s.sp - 7, waiWait := true }) ∧
      (∀ e, busWrites (frameWrites s) s = .fault e → exec .wai s = .fault e)) ∧
    (s.config.waiMode = .fault → exec .wai s = .fault (.unimplementedOpcode 0x3E (s.pc - 1)))

/-- R210, R229: RTI pulls CC, B, A, X and PC from the seven bytes above SP and adds 7 to SP; I becomes bit 4 of the pulled byte, and
nothing else differs but what the seven reads reach, which in RAM or ROM is nothing; a fault of any is the instruction's. -/
def Obligations.RtiResult : Prop :=
  ∀ s : State,
    let addrs := [s.sp + 1, s.sp + 2, s.sp + 3, s.sp + 4, s.sp + 5, s.sp + 6, s.sp + 7]
    (∀ c b a xh xl ph pl : Byte, addrs.map (peek · s) = [c, b, a, xh, xl, ph, pl].map some →
      exec .rti s = .next { s with
        cc := { h := c.getLsbD 5, i := c.getLsbD 4, n := c.getLsbD 3, z := c.getLsbD 2, v := c.getLsbD 1, c := c.getLsbD 0 }
        b := b, a := a, x := joinBytes xh xl, pc := joinBytes ph pl, sp := s.sp + 7 }) ∧
    (∀ (c b a xh xl ph pl : Byte) (t : State), busReads addrs s = .ok [c, b, a, xh, xl, ph, pl] t →
      exec .rti s = .next { t with
        cc := { h := c.getLsbD 5, i := c.getLsbD 4, n := c.getLsbD 3, z := c.getLsbD 2, v := c.getLsbD 1, c := c.getLsbD 0 }
        b := b, a := a, x := joinBytes xh xl, pc := joinBytes ph pl, sp := s.sp + 7 }) ∧
    ∀ e, busReads addrs s = .fault e → exec .rti s = .fault e

/-- R209, R210, R211, R225, R229: RTI undoes every interrupt, the SWI instruction, an NMI or IRQ entry, and the stacking of WAI, which
an interrupt that ends the wait does not repeat. Whatever a handler has done, if SP and the seven stacked bytes are as the entry left
them, RTI restores A, B, X, PC, SP and every flag, I among them. -/
def Obligations.ReturnUndoesInterrupt : Prop :=
  ∀ s t u : State, frameStorable s →
    (exec .swi s = .next t ∨ exec .wai s = .next t ∨
      (s.waiWait = false ∧ (s.nmiPending = true ∨ irqTaken s = true) ∧ step s = .next t)) →
    u.sp = t.sp → (∀ c ∈ frameBytes s, peek c.1 u = peek c.1 t) →
    exec .rti u = .next { u with cc := s.cc, b := s.b, a := s.a, x := s.x, pc := s.pc, sp := s.sp }

/-! Rules about every instruction. -/

/-- Every instruction of the 6800 completes: whatever it stores goes to writable RAM and whatever it loads comes from RAM or ROM,
the step's meaning answers a next state, in every state and with every operand (files 40 to 45; WAI where the machine has it,
R211). -/
def Obligations.EveryInstructionCompletes : Prop :=
  ∀ (i : Instr) (s : State), i.WellFormed → (i = .wai → s.config.waiMode = .motorola) →
    (∀ a ∈ storedAddrs i s, storable s a) → (∀ a ∈ loadedAddrs i s, readable s a) → ∃ t, exec i s = .next t

/-- R220 to R222: an instruction stops only for a reason the spec names. Nothing is refused; a fault is BusFault, or IllegalOpcode
of an illegal byte, or UnimplementedOpcode of WAI in the mode that has none. -/
def Obligations.StopsAreNamedFaults : Prop :=
  ∀ (i : Instr) (s : State),
    (∀ r, exec i s ≠ .refused r) ∧
    ∀ f, exec i s = .fault f →
      (∃ addr kind, f = .busFault addr kind) ∨ (i.valid = false ∧ f = .illegalOpcode i.opcode (s.pc - 1)) ∨
        (i = .wai ∧ s.config.waiMode = .fault ∧ f = .unimplementedOpcode 0x3E (s.pc - 1))

/-- R26: a flag an instruction does not write, by the table of the rule, is unchanged. -/
def Obligations.FlagFrame : Prop :=
  ∀ (i : Instr) (s t : State), exec i s = .next t →
    ((flagsWritten i).h = false → t.cc.h = s.cc.h) ∧ ((flagsWritten i).i = false → t.cc.i = s.cc.i) ∧
    ((flagsWritten i).n = false → t.cc.n = s.cc.n) ∧ ((flagsWritten i).z = false → t.cc.z = s.cc.z) ∧
    ((flagsWritten i).v = false → t.cc.v = s.cc.v) ∧ ((flagsWritten i).c = false → t.cc.c = s.cc.c)

/-- Files 40 to 45: a register an instruction does not write is unchanged, PC among them (beyond the advance past the instruction's
own bytes, R14), and so are the hidden bits but for WAI's, the recorded fault and the configuration; only DAA draws a free value. -/
def Obligations.RegisterFrame : Prop :=
  ∀ (i : Instr) (s t : State), exec i s = .next t →
    ((regsWritten i).a = false → t.a = s.a) ∧ ((regsWritten i).b = false → t.b = s.b) ∧
    ((regsWritten i).x = false → t.x = s.x) ∧ ((regsWritten i).sp = false → t.sp = s.sp) ∧
    (transfersControl i = false → t.pc = s.pc) ∧ (i ≠ .wai → t.waiWait = s.waiWait) ∧ (i ≠ .daa → t.draws = s.draws) ∧
    t.nmiPending = s.nmiPending ∧ t.fault = s.fault ∧ t.config = s.config

/-- Files 40 to 45: every byte of RAM and ROM outside the addresses an instruction stores to reads as before; an instruction that
stores to none leaves them all. -/
def Obligations.MemoryFrame : Prop :=
  ∀ (i : Instr) (s t : State), exec i s = .next t → ∀ a, a ∉ storedAddrs i s → peek a t = peek a s

/-- R9, R240 to R243: the PIA and the decoder are passive. An instruction none of whose data accesses falls in the window leaves
both ports and the decoder as they were; one that stores nothing there leaves the decoder, and each port as it was or acknowledged by
a data-register read: flag bits 7:6 and the latch cleared, bits 5:0 and every other register and line kept. -/
def Obligations.DeviceFrame : Prop :=
  ∀ (i : Instr) (s t : State), exec i s = .next t →
    ((∀ a ∈ storedAddrs i s ++ loadedAddrs i s, ¬ inWindow s a) →
      t.portA = s.portA ∧ t.portB = s.portB ∧ t.cvsd = s.cvsd) ∧
    ((∀ a ∈ storedAddrs i s, ¬ inWindow s a) →
      t.cvsd = s.cvsd ∧ ∀ p, t.port p = s.port p ∨
        t.port p = { s.port p with controlRegister := (s.port p).controlRegister &&& 0x3F, irqLatched := false })

/-! The invariant. -/

/-- R22, R30, R17, R251 and the canonical form of RAM: every step keeps the invariant, from every state that has it, reached or
not. -/
def Obligations.StepKeepsInvariant : Prop :=
  ∀ s t : State, machineInv s → step s = .next t → machineInv t

/-- The reset state has the invariant. -/
def Obligations.ResetHasInvariant : Prop := machineInv State.reset

/-- R8, R287, D27: so does every machine after any interleaving of steps and host operations, resets among them. Of a run that ends
with a fault recorded, whose state the spec leaves undefined (R18, R220, D16, U6), this is the model's choice: `hostStep` leaves the
other fields as before the step (DESIGN CHOICE, log entry 7), and a reset whose vector reads fault those of `resetElements`
(DESIGN CHOICE, log entry 24). -/
def Obligations.HostRunsKeepInvariant : Prop :=
  ∀ (s : State) (ops : List HostOp), machineInv s → (∀ op ∈ ops, hostOpLegal s.config op) →
    machineInv (runHost ops s) ∧ (runHost ops s).config = s.config
end

