-- ==== Sys2Proof/Laws/Decode.lean ====
section
/-! SUPPORT. What the decoder answers, by the number of operand bytes. -/

namespace Sys2Proof.Laws

/-- An opcode without operand bytes. -/
theorem decode_of_count_zero (op : Byte) (i : Instr) (rest : List Byte) (h : operandCount op = 0) (hi : decodeWith op 0 0 = i) : decode (op :: rest) = .instr i rest := by
  unfold decode; dsimp only; rw [h, ← hi]; rfl

/-- An opcode with one operand byte. -/
theorem decode_of_count_one (op b : Byte) (i : Instr) (rest : List Byte) (h : operandCount op = 1) (hi : decodeWith op b 0 = i) : decode (op :: b :: rest) = .instr i rest := by
  unfold decode; dsimp only; rw [h, ← hi]; rfl

/-- An opcode with two operand bytes, as the encoder writes them. -/
theorem decode_of_count_two (op : Byte) (w : Word) (i : Instr) (rest : List Byte) (h : operandCount op = 2) (hi : decodeWith op (byteHi w) (byteLo w) = i) : decode (op :: byteHi w :: byteLo w :: rest) = .instr i rest := by
  unfold decode; dsimp only; rw [h, ← hi]; rfl

/-- An opcode takes at most two operand bytes (R60). -/
theorem operandCount_cases (op : Byte) : operandCount op = 0 ∨ operandCount op = 1 ∨ operandCount op = 2 := by
  have : ∀ m : AddrMode, m.operandBytes = 0 ∨ m.operandBytes = 1 ∨ m.operandBytes = 2 := by intro m; cases m <;> simp [AddrMode.operandBytes]
  exact this _

end Sys2Proof.Laws
end

