-- ==== Sys2Proof/Laws/Memory.lean ====
section
/-! SUPPORT. The laws of memory: a read after a write, and the canonical form, which every memory operation keeps. -/

namespace Sys2Proof.Laws

open Sys2Proof.Machine

@[simp] theorem memory_read_nil (a : Nat) : Memory.read [] a = unlistedByte := rfl

theorem memory_read_cell (b : Nat) (w : Byte) (rest : Memory) (a : Nat) :
    Memory.read ((b, w) :: rest) a = if a = b then w else Memory.read rest a := rfl

theorem memory_read_erase (m : Memory) (a b : Nat) :
    (m.erase a).read b = if b = a then unlistedByte else m.read b := by
  induction m with
  | nil => simp [Memory.erase]
  | cons d rest ih =>
    obtain ⟨e, w⟩ := d
    unfold Memory.erase at ih ⊢
    by_cases h : e = a
    · subst h
      rw [List.filter_cons_of_neg (by simp), ih, memory_read_cell]
      split <;> rfl
    · rw [List.filter_cons_of_pos (by simpa using h), memory_read_cell, memory_read_cell, ih]
      by_cases hb : b = e
      · subst hb; simp [h]
      · simp [hb]

theorem memory_read_insert (m : Memory) (a b : Nat) (v : Byte) (h : ∀ c ∈ m, c.1 ≠ a) :
    (m.insert a v).read b = if b = a then v else m.read b := by
  induction m with
  | nil => rfl
  | cons d rest ih =>
    obtain ⟨e, w⟩ := d
    have he : e ≠ a := h (e, w) List.mem_cons_self
    unfold Memory.insert
    split
    next => rw [memory_read_cell]
    next =>
      rw [memory_read_cell, ih fun c hc => h c (List.mem_cons_of_mem _ hc), memory_read_cell]
      by_cases hb : b = e
      · subst hb; simp [he]
      · simp [hb]

/-- A read after a write gives the byte written at its address and the old byte anywhere else. -/
theorem memory_read_write (m : Memory) (a b : Nat) (v : Byte) :
    (m.write a v).read b = if b = a then v else m.read b := by
  unfold Memory.write
  split
  next hv => rw [memory_read_erase, hv]
  next =>
    rw [memory_read_insert _ _ _ _ fun c hc => by simpa using (List.mem_filter.1 hc).2, memory_read_erase]
    split <;> rfl

theorem memory_mem_insert (m : Memory) (a : Nat) (v : Byte) (c : Host.Cell) (h : c ∈ m.insert a v) :
    c = (a, v) ∨ c ∈ m := by
  induction m with
  | nil => exact .inl (by simpa [Memory.insert] using h)
  | cons d rest ih =>
    obtain ⟨e, w⟩ := d
    unfold Memory.insert at h
    split at h
    next => simpa using h
    next =>
      rcases List.mem_cons.1 h with h | h
      · exact .inr (h ▸ List.mem_cons_self)
      · exact (ih h).imp id (List.mem_cons_of_mem _)

/-- What a write can put in the list: the written cell, which is no unlisted byte, or a cell that was there. -/
theorem memory_mem_write (m : Memory) (a : Nat) (v : Byte) (c : Host.Cell) (h : c ∈ m.write a v) :
    (c = (a, v) ∧ v ≠ unlistedByte) ∨ c ∈ m := by
  unfold Memory.write at h
  split at h
  next => exact .inr (List.mem_filter.1 h).1
  next hv =>
    rcases memory_mem_insert _ a v c h with h | h
    · exact .inl ⟨h, hv⟩
    · exact .inr (List.mem_filter.1 h).1

theorem memory_insert_pairwise (m : Memory) (a : Nat) (v : Byte) (h : m.Pairwise fun x y => x.1 < y.1)
    (hne : ∀ c ∈ m, c.1 ≠ a) : (m.insert a v).Pairwise fun x y => x.1 < y.1 := by
  induction m with
  | nil => simp [Memory.insert]
  | cons d rest ih =>
    obtain ⟨e, w⟩ := d
    obtain ⟨hd, hr⟩ := List.pairwise_cons.1 h
    unfold Memory.insert
    split
    next hlt =>
      refine List.pairwise_cons.2 ⟨fun c hc => ?_, h⟩
      rcases List.mem_cons.1 hc with rfl | hc
      · exact hlt
      · exact Nat.lt_trans hlt (hd c hc)
    next hge =>
      refine List.pairwise_cons.2 ⟨fun c hc => ?_, ih hr fun c hc => hne c (List.mem_cons_of_mem _ hc)⟩
      have he : e ≠ a := hne (e, w) List.mem_cons_self
      rcases memory_mem_insert rest a v c hc with rfl | hc
      · show e < a
        omega
      · exact hd c hc

/-- A write keeps the canonical form. -/
theorem memory_write_wf (m : Memory) (a : Nat) (v : Byte) (h : m.wf) : (m.write a v).wf := by
  refine ⟨?_, fun c hc => ?_⟩
  · unfold Memory.write
    split
    next => exact h.1.filter _
    next => exact memory_insert_pairwise _ a v (h.1.filter _) fun c hc => by simpa using (List.mem_filter.1 hc).2
  · rcases memory_mem_write m a v c hc with ⟨rfl, hv⟩ | hc
    · exact hv
    · exact h.2 c hc

theorem memory_nil_wf : Memory.wf [] := ⟨List.Pairwise.nil, fun _ h => nomatch h⟩

end Sys2Proof.Laws
end

