-- ==== Sys2Proof/Laws/State.lean ====
section
/-! SUPPORT. What each update of the state leaves in each field: one lemma per field per update, true by rfl. -/

namespace Sys2Proof.Laws

open Sys2Proof.Machine

@[simp] theorem setA_a (s : State) (v : Byte) : (s.setA v).a = v := rfl
@[simp] theorem setA_b (s : State) (v : Byte) : (s.setA v).b = s.b := rfl
@[simp] theorem setA_x (s : State) (v : Byte) : (s.setA v).x = s.x := rfl
@[simp] theorem setA_sp (s : State) (v : Byte) : (s.setA v).sp = s.sp := rfl
@[simp] theorem setA_pc (s : State) (v : Byte) : (s.setA v).pc = s.pc := rfl
@[simp] theorem setA_cc (s : State) (v : Byte) : (s.setA v).cc = s.cc := rfl
@[simp] theorem setA_nmiPending (s : State) (v : Byte) : (s.setA v).nmiPending = s.nmiPending := rfl
@[simp] theorem setA_waiWait (s : State) (v : Byte) : (s.setA v).waiWait = s.waiWait := rfl
@[simp] theorem setA_fault (s : State) (v : Byte) : (s.setA v).fault = s.fault := rfl
@[simp] theorem setA_mem (s : State) (v : Byte) : (s.setA v).mem = s.mem := rfl
@[simp] theorem setA_portA (s : State) (v : Byte) : (s.setA v).portA = s.portA := rfl
@[simp] theorem setA_portB (s : State) (v : Byte) : (s.setA v).portB = s.portB := rfl
@[simp] theorem setA_cvsd (s : State) (v : Byte) : (s.setA v).cvsd = s.cvsd := rfl
@[simp] theorem setA_draws (s : State) (v : Byte) : (s.setA v).draws = s.draws := rfl
@[simp] theorem setA_config (s : State) (v : Byte) : (s.setA v).config = s.config := rfl

@[simp] theorem setB_a (s : State) (v : Byte) : (s.setB v).a = s.a := rfl
@[simp] theorem setB_b (s : State) (v : Byte) : (s.setB v).b = v := rfl
@[simp] theorem setB_x (s : State) (v : Byte) : (s.setB v).x = s.x := rfl
@[simp] theorem setB_sp (s : State) (v : Byte) : (s.setB v).sp = s.sp := rfl
@[simp] theorem setB_pc (s : State) (v : Byte) : (s.setB v).pc = s.pc := rfl
@[simp] theorem setB_cc (s : State) (v : Byte) : (s.setB v).cc = s.cc := rfl
@[simp] theorem setB_nmiPending (s : State) (v : Byte) : (s.setB v).nmiPending = s.nmiPending := rfl
@[simp] theorem setB_waiWait (s : State) (v : Byte) : (s.setB v).waiWait = s.waiWait := rfl
@[simp] theorem setB_fault (s : State) (v : Byte) : (s.setB v).fault = s.fault := rfl
@[simp] theorem setB_mem (s : State) (v : Byte) : (s.setB v).mem = s.mem := rfl
@[simp] theorem setB_portA (s : State) (v : Byte) : (s.setB v).portA = s.portA := rfl
@[simp] theorem setB_portB (s : State) (v : Byte) : (s.setB v).portB = s.portB := rfl
@[simp] theorem setB_cvsd (s : State) (v : Byte) : (s.setB v).cvsd = s.cvsd := rfl
@[simp] theorem setB_draws (s : State) (v : Byte) : (s.setB v).draws = s.draws := rfl
@[simp] theorem setB_config (s : State) (v : Byte) : (s.setB v).config = s.config := rfl

@[simp] theorem setX_a (s : State) (v : Word) : (s.setX v).a = s.a := rfl
@[simp] theorem setX_b (s : State) (v : Word) : (s.setX v).b = s.b := rfl
@[simp] theorem setX_x (s : State) (v : Word) : (s.setX v).x = v := rfl
@[simp] theorem setX_sp (s : State) (v : Word) : (s.setX v).sp = s.sp := rfl
@[simp] theorem setX_pc (s : State) (v : Word) : (s.setX v).pc = s.pc := rfl
@[simp] theorem setX_cc (s : State) (v : Word) : (s.setX v).cc = s.cc := rfl
@[simp] theorem setX_nmiPending (s : State) (v : Word) : (s.setX v).nmiPending = s.nmiPending := rfl
@[simp] theorem setX_waiWait (s : State) (v : Word) : (s.setX v).waiWait = s.waiWait := rfl
@[simp] theorem setX_fault (s : State) (v : Word) : (s.setX v).fault = s.fault := rfl
@[simp] theorem setX_mem (s : State) (v : Word) : (s.setX v).mem = s.mem := rfl
@[simp] theorem setX_portA (s : State) (v : Word) : (s.setX v).portA = s.portA := rfl
@[simp] theorem setX_portB (s : State) (v : Word) : (s.setX v).portB = s.portB := rfl
@[simp] theorem setX_cvsd (s : State) (v : Word) : (s.setX v).cvsd = s.cvsd := rfl
@[simp] theorem setX_draws (s : State) (v : Word) : (s.setX v).draws = s.draws := rfl
@[simp] theorem setX_config (s : State) (v : Word) : (s.setX v).config = s.config := rfl

@[simp] theorem setSp_a (s : State) (v : Word) : (s.setSp v).a = s.a := rfl
@[simp] theorem setSp_b (s : State) (v : Word) : (s.setSp v).b = s.b := rfl
@[simp] theorem setSp_x (s : State) (v : Word) : (s.setSp v).x = s.x := rfl
@[simp] theorem setSp_sp (s : State) (v : Word) : (s.setSp v).sp = v := rfl
@[simp] theorem setSp_pc (s : State) (v : Word) : (s.setSp v).pc = s.pc := rfl
@[simp] theorem setSp_cc (s : State) (v : Word) : (s.setSp v).cc = s.cc := rfl
@[simp] theorem setSp_nmiPending (s : State) (v : Word) : (s.setSp v).nmiPending = s.nmiPending := rfl
@[simp] theorem setSp_waiWait (s : State) (v : Word) : (s.setSp v).waiWait = s.waiWait := rfl
@[simp] theorem setSp_fault (s : State) (v : Word) : (s.setSp v).fault = s.fault := rfl
@[simp] theorem setSp_mem (s : State) (v : Word) : (s.setSp v).mem = s.mem := rfl
@[simp] theorem setSp_portA (s : State) (v : Word) : (s.setSp v).portA = s.portA := rfl
@[simp] theorem setSp_portB (s : State) (v : Word) : (s.setSp v).portB = s.portB := rfl
@[simp] theorem setSp_cvsd (s : State) (v : Word) : (s.setSp v).cvsd = s.cvsd := rfl
@[simp] theorem setSp_draws (s : State) (v : Word) : (s.setSp v).draws = s.draws := rfl
@[simp] theorem setSp_config (s : State) (v : Word) : (s.setSp v).config = s.config := rfl

@[simp] theorem setPc_a (s : State) (v : Word) : (s.setPc v).a = s.a := rfl
@[simp] theorem setPc_b (s : State) (v : Word) : (s.setPc v).b = s.b := rfl
@[simp] theorem setPc_x (s : State) (v : Word) : (s.setPc v).x = s.x := rfl
@[simp] theorem setPc_sp (s : State) (v : Word) : (s.setPc v).sp = s.sp := rfl
@[simp] theorem setPc_pc (s : State) (v : Word) : (s.setPc v).pc = v := rfl
@[simp] theorem setPc_cc (s : State) (v : Word) : (s.setPc v).cc = s.cc := rfl
@[simp] theorem setPc_nmiPending (s : State) (v : Word) : (s.setPc v).nmiPending = s.nmiPending := rfl
@[simp] theorem setPc_waiWait (s : State) (v : Word) : (s.setPc v).waiWait = s.waiWait := rfl
@[simp] theorem setPc_fault (s : State) (v : Word) : (s.setPc v).fault = s.fault := rfl
@[simp] theorem setPc_mem (s : State) (v : Word) : (s.setPc v).mem = s.mem := rfl
@[simp] theorem setPc_portA (s : State) (v : Word) : (s.setPc v).portA = s.portA := rfl
@[simp] theorem setPc_portB (s : State) (v : Word) : (s.setPc v).portB = s.portB := rfl
@[simp] theorem setPc_cvsd (s : State) (v : Word) : (s.setPc v).cvsd = s.cvsd := rfl
@[simp] theorem setPc_draws (s : State) (v : Word) : (s.setPc v).draws = s.draws := rfl
@[simp] theorem setPc_config (s : State) (v : Word) : (s.setPc v).config = s.config := rfl

@[simp] theorem setCc_a (s : State) (v : CC) : (s.setCc v).a = s.a := rfl
@[simp] theorem setCc_b (s : State) (v : CC) : (s.setCc v).b = s.b := rfl
@[simp] theorem setCc_x (s : State) (v : CC) : (s.setCc v).x = s.x := rfl
@[simp] theorem setCc_sp (s : State) (v : CC) : (s.setCc v).sp = s.sp := rfl
@[simp] theorem setCc_pc (s : State) (v : CC) : (s.setCc v).pc = s.pc := rfl
@[simp] theorem setCc_cc (s : State) (v : CC) : (s.setCc v).cc = v := rfl
@[simp] theorem setCc_nmiPending (s : State) (v : CC) : (s.setCc v).nmiPending = s.nmiPending := rfl
@[simp] theorem setCc_waiWait (s : State) (v : CC) : (s.setCc v).waiWait = s.waiWait := rfl
@[simp] theorem setCc_fault (s : State) (v : CC) : (s.setCc v).fault = s.fault := rfl
@[simp] theorem setCc_mem (s : State) (v : CC) : (s.setCc v).mem = s.mem := rfl
@[simp] theorem setCc_portA (s : State) (v : CC) : (s.setCc v).portA = s.portA := rfl
@[simp] theorem setCc_portB (s : State) (v : CC) : (s.setCc v).portB = s.portB := rfl
@[simp] theorem setCc_cvsd (s : State) (v : CC) : (s.setCc v).cvsd = s.cvsd := rfl
@[simp] theorem setCc_draws (s : State) (v : CC) : (s.setCc v).draws = s.draws := rfl
@[simp] theorem setCc_config (s : State) (v : CC) : (s.setCc v).config = s.config := rfl

@[simp] theorem setNmiPending_a (s : State) (v : Bool) : (s.setNmiPending v).a = s.a := rfl
@[simp] theorem setNmiPending_b (s : State) (v : Bool) : (s.setNmiPending v).b = s.b := rfl
@[simp] theorem setNmiPending_x (s : State) (v : Bool) : (s.setNmiPending v).x = s.x := rfl
@[simp] theorem setNmiPending_sp (s : State) (v : Bool) : (s.setNmiPending v).sp = s.sp := rfl
@[simp] theorem setNmiPending_pc (s : State) (v : Bool) : (s.setNmiPending v).pc = s.pc := rfl
@[simp] theorem setNmiPending_cc (s : State) (v : Bool) : (s.setNmiPending v).cc = s.cc := rfl
@[simp] theorem setNmiPending_nmiPending (s : State) (v : Bool) : (s.setNmiPending v).nmiPending = v := rfl
@[simp] theorem setNmiPending_waiWait (s : State) (v : Bool) : (s.setNmiPending v).waiWait = s.waiWait := rfl
@[simp] theorem setNmiPending_fault (s : State) (v : Bool) : (s.setNmiPending v).fault = s.fault := rfl
@[simp] theorem setNmiPending_mem (s : State) (v : Bool) : (s.setNmiPending v).mem = s.mem := rfl
@[simp] theorem setNmiPending_portA (s : State) (v : Bool) : (s.setNmiPending v).portA = s.portA := rfl
@[simp] theorem setNmiPending_portB (s : State) (v : Bool) : (s.setNmiPending v).portB = s.portB := rfl
@[simp] theorem setNmiPending_cvsd (s : State) (v : Bool) : (s.setNmiPending v).cvsd = s.cvsd := rfl
@[simp] theorem setNmiPending_draws (s : State) (v : Bool) : (s.setNmiPending v).draws = s.draws := rfl
@[simp] theorem setNmiPending_config (s : State) (v : Bool) : (s.setNmiPending v).config = s.config := rfl

@[simp] theorem setWaiWait_a (s : State) (v : Bool) : (s.setWaiWait v).a = s.a := rfl
@[simp] theorem setWaiWait_b (s : State) (v : Bool) : (s.setWaiWait v).b = s.b := rfl
@[simp] theorem setWaiWait_x (s : State) (v : Bool) : (s.setWaiWait v).x = s.x := rfl
@[simp] theorem setWaiWait_sp (s : State) (v : Bool) : (s.setWaiWait v).sp = s.sp := rfl
@[simp] theorem setWaiWait_pc (s : State) (v : Bool) : (s.setWaiWait v).pc = s.pc := rfl
@[simp] theorem setWaiWait_cc (s : State) (v : Bool) : (s.setWaiWait v).cc = s.cc := rfl
@[simp] theorem setWaiWait_nmiPending (s : State) (v : Bool) : (s.setWaiWait v).nmiPending = s.nmiPending := rfl
@[simp] theorem setWaiWait_waiWait (s : State) (v : Bool) : (s.setWaiWait v).waiWait = v := rfl
@[simp] theorem setWaiWait_fault (s : State) (v : Bool) : (s.setWaiWait v).fault = s.fault := rfl
@[simp] theorem setWaiWait_mem (s : State) (v : Bool) : (s.setWaiWait v).mem = s.mem := rfl
@[simp] theorem setWaiWait_portA (s : State) (v : Bool) : (s.setWaiWait v).portA = s.portA := rfl
@[simp] theorem setWaiWait_portB (s : State) (v : Bool) : (s.setWaiWait v).portB = s.portB := rfl
@[simp] theorem setWaiWait_cvsd (s : State) (v : Bool) : (s.setWaiWait v).cvsd = s.cvsd := rfl
@[simp] theorem setWaiWait_draws (s : State) (v : Bool) : (s.setWaiWait v).draws = s.draws := rfl
@[simp] theorem setWaiWait_config (s : State) (v : Bool) : (s.setWaiWait v).config = s.config := rfl

@[simp] theorem setFault_a (s : State) (v : Option Fault) : (s.setFault v).a = s.a := rfl
@[simp] theorem setFault_b (s : State) (v : Option Fault) : (s.setFault v).b = s.b := rfl
@[simp] theorem setFault_x (s : State) (v : Option Fault) : (s.setFault v).x = s.x := rfl
@[simp] theorem setFault_sp (s : State) (v : Option Fault) : (s.setFault v).sp = s.sp := rfl
@[simp] theorem setFault_pc (s : State) (v : Option Fault) : (s.setFault v).pc = s.pc := rfl
@[simp] theorem setFault_cc (s : State) (v : Option Fault) : (s.setFault v).cc = s.cc := rfl
@[simp] theorem setFault_nmiPending (s : State) (v : Option Fault) : (s.setFault v).nmiPending = s.nmiPending := rfl
@[simp] theorem setFault_waiWait (s : State) (v : Option Fault) : (s.setFault v).waiWait = s.waiWait := rfl
@[simp] theorem setFault_fault (s : State) (v : Option Fault) : (s.setFault v).fault = v := rfl
@[simp] theorem setFault_mem (s : State) (v : Option Fault) : (s.setFault v).mem = s.mem := rfl
@[simp] theorem setFault_portA (s : State) (v : Option Fault) : (s.setFault v).portA = s.portA := rfl
@[simp] theorem setFault_portB (s : State) (v : Option Fault) : (s.setFault v).portB = s.portB := rfl
@[simp] theorem setFault_cvsd (s : State) (v : Option Fault) : (s.setFault v).cvsd = s.cvsd := rfl
@[simp] theorem setFault_draws (s : State) (v : Option Fault) : (s.setFault v).draws = s.draws := rfl
@[simp] theorem setFault_config (s : State) (v : Option Fault) : (s.setFault v).config = s.config := rfl

@[simp] theorem setMem_a (s : State) (v : Memory) : (s.setMem v).a = s.a := rfl
@[simp] theorem setMem_b (s : State) (v : Memory) : (s.setMem v).b = s.b := rfl
@[simp] theorem setMem_x (s : State) (v : Memory) : (s.setMem v).x = s.x := rfl
@[simp] theorem setMem_sp (s : State) (v : Memory) : (s.setMem v).sp = s.sp := rfl
@[simp] theorem setMem_pc (s : State) (v : Memory) : (s.setMem v).pc = s.pc := rfl
@[simp] theorem setMem_cc (s : State) (v : Memory) : (s.setMem v).cc = s.cc := rfl
@[simp] theorem setMem_nmiPending (s : State) (v : Memory) : (s.setMem v).nmiPending = s.nmiPending := rfl
@[simp] theorem setMem_waiWait (s : State) (v : Memory) : (s.setMem v).waiWait = s.waiWait := rfl
@[simp] theorem setMem_fault (s : State) (v : Memory) : (s.setMem v).fault = s.fault := rfl
@[simp] theorem setMem_mem (s : State) (v : Memory) : (s.setMem v).mem = v := rfl
@[simp] theorem setMem_portA (s : State) (v : Memory) : (s.setMem v).portA = s.portA := rfl
@[simp] theorem setMem_portB (s : State) (v : Memory) : (s.setMem v).portB = s.portB := rfl
@[simp] theorem setMem_cvsd (s : State) (v : Memory) : (s.setMem v).cvsd = s.cvsd := rfl
@[simp] theorem setMem_draws (s : State) (v : Memory) : (s.setMem v).draws = s.draws := rfl
@[simp] theorem setMem_config (s : State) (v : Memory) : (s.setMem v).config = s.config := rfl

@[simp] theorem setPortA_a (s : State) (v : Port) : (s.setPortA v).a = s.a := rfl
@[simp] theorem setPortA_b (s : State) (v : Port) : (s.setPortA v).b = s.b := rfl
@[simp] theorem setPortA_x (s : State) (v : Port) : (s.setPortA v).x = s.x := rfl
@[simp] theorem setPortA_sp (s : State) (v : Port) : (s.setPortA v).sp = s.sp := rfl
@[simp] theorem setPortA_pc (s : State) (v : Port) : (s.setPortA v).pc = s.pc := rfl
@[simp] theorem setPortA_cc (s : State) (v : Port) : (s.setPortA v).cc = s.cc := rfl
@[simp] theorem setPortA_nmiPending (s : State) (v : Port) : (s.setPortA v).nmiPending = s.nmiPending := rfl
@[simp] theorem setPortA_waiWait (s : State) (v : Port) : (s.setPortA v).waiWait = s.waiWait := rfl
@[simp] theorem setPortA_fault (s : State) (v : Port) : (s.setPortA v).fault = s.fault := rfl
@[simp] theorem setPortA_mem (s : State) (v : Port) : (s.setPortA v).mem = s.mem := rfl
@[simp] theorem setPortA_portA (s : State) (v : Port) : (s.setPortA v).portA = v := rfl
@[simp] theorem setPortA_portB (s : State) (v : Port) : (s.setPortA v).portB = s.portB := rfl
@[simp] theorem setPortA_cvsd (s : State) (v : Port) : (s.setPortA v).cvsd = s.cvsd := rfl
@[simp] theorem setPortA_draws (s : State) (v : Port) : (s.setPortA v).draws = s.draws := rfl
@[simp] theorem setPortA_config (s : State) (v : Port) : (s.setPortA v).config = s.config := rfl

@[simp] theorem setPortB_a (s : State) (v : Port) : (s.setPortB v).a = s.a := rfl
@[simp] theorem setPortB_b (s : State) (v : Port) : (s.setPortB v).b = s.b := rfl
@[simp] theorem setPortB_x (s : State) (v : Port) : (s.setPortB v).x = s.x := rfl
@[simp] theorem setPortB_sp (s : State) (v : Port) : (s.setPortB v).sp = s.sp := rfl
@[simp] theorem setPortB_pc (s : State) (v : Port) : (s.setPortB v).pc = s.pc := rfl
@[simp] theorem setPortB_cc (s : State) (v : Port) : (s.setPortB v).cc = s.cc := rfl
@[simp] theorem setPortB_nmiPending (s : State) (v : Port) : (s.setPortB v).nmiPending = s.nmiPending := rfl
@[simp] theorem setPortB_waiWait (s : State) (v : Port) : (s.setPortB v).waiWait = s.waiWait := rfl
@[simp] theorem setPortB_fault (s : State) (v : Port) : (s.setPortB v).fault = s.fault := rfl
@[simp] theorem setPortB_mem (s : State) (v : Port) : (s.setPortB v).mem = s.mem := rfl
@[simp] theorem setPortB_portA (s : State) (v : Port) : (s.setPortB v).portA = s.portA := rfl
@[simp] theorem setPortB_portB (s : State) (v : Port) : (s.setPortB v).portB = v := rfl
@[simp] theorem setPortB_cvsd (s : State) (v : Port) : (s.setPortB v).cvsd = s.cvsd := rfl
@[simp] theorem setPortB_draws (s : State) (v : Port) : (s.setPortB v).draws = s.draws := rfl
@[simp] theorem setPortB_config (s : State) (v : Port) : (s.setPortB v).config = s.config := rfl

@[simp] theorem setCvsd_a (s : State) (v : Cvsd) : (s.setCvsd v).a = s.a := rfl
@[simp] theorem setCvsd_b (s : State) (v : Cvsd) : (s.setCvsd v).b = s.b := rfl
@[simp] theorem setCvsd_x (s : State) (v : Cvsd) : (s.setCvsd v).x = s.x := rfl
@[simp] theorem setCvsd_sp (s : State) (v : Cvsd) : (s.setCvsd v).sp = s.sp := rfl
@[simp] theorem setCvsd_pc (s : State) (v : Cvsd) : (s.setCvsd v).pc = s.pc := rfl
@[simp] theorem setCvsd_cc (s : State) (v : Cvsd) : (s.setCvsd v).cc = s.cc := rfl
@[simp] theorem setCvsd_nmiPending (s : State) (v : Cvsd) : (s.setCvsd v).nmiPending = s.nmiPending := rfl
@[simp] theorem setCvsd_waiWait (s : State) (v : Cvsd) : (s.setCvsd v).waiWait = s.waiWait := rfl
@[simp] theorem setCvsd_fault (s : State) (v : Cvsd) : (s.setCvsd v).fault = s.fault := rfl
@[simp] theorem setCvsd_mem (s : State) (v : Cvsd) : (s.setCvsd v).mem = s.mem := rfl
@[simp] theorem setCvsd_portA (s : State) (v : Cvsd) : (s.setCvsd v).portA = s.portA := rfl
@[simp] theorem setCvsd_portB (s : State) (v : Cvsd) : (s.setCvsd v).portB = s.portB := rfl
@[simp] theorem setCvsd_cvsd (s : State) (v : Cvsd) : (s.setCvsd v).cvsd = v := rfl
@[simp] theorem setCvsd_draws (s : State) (v : Cvsd) : (s.setCvsd v).draws = s.draws := rfl
@[simp] theorem setCvsd_config (s : State) (v : Cvsd) : (s.setCvsd v).config = s.config := rfl

@[simp] theorem setDraws_a (s : State) (v : Nat) : (s.setDraws v).a = s.a := rfl
@[simp] theorem setDraws_b (s : State) (v : Nat) : (s.setDraws v).b = s.b := rfl
@[simp] theorem setDraws_x (s : State) (v : Nat) : (s.setDraws v).x = s.x := rfl
@[simp] theorem setDraws_sp (s : State) (v : Nat) : (s.setDraws v).sp = s.sp := rfl
@[simp] theorem setDraws_pc (s : State) (v : Nat) : (s.setDraws v).pc = s.pc := rfl
@[simp] theorem setDraws_cc (s : State) (v : Nat) : (s.setDraws v).cc = s.cc := rfl
@[simp] theorem setDraws_nmiPending (s : State) (v : Nat) : (s.setDraws v).nmiPending = s.nmiPending := rfl
@[simp] theorem setDraws_waiWait (s : State) (v : Nat) : (s.setDraws v).waiWait = s.waiWait := rfl
@[simp] theorem setDraws_fault (s : State) (v : Nat) : (s.setDraws v).fault = s.fault := rfl
@[simp] theorem setDraws_mem (s : State) (v : Nat) : (s.setDraws v).mem = s.mem := rfl
@[simp] theorem setDraws_portA (s : State) (v : Nat) : (s.setDraws v).portA = s.portA := rfl
@[simp] theorem setDraws_portB (s : State) (v : Nat) : (s.setDraws v).portB = s.portB := rfl
@[simp] theorem setDraws_cvsd (s : State) (v : Nat) : (s.setDraws v).cvsd = s.cvsd := rfl
@[simp] theorem setDraws_draws (s : State) (v : Nat) : (s.setDraws v).draws = v := rfl
@[simp] theorem setDraws_config (s : State) (v : Nat) : (s.setDraws v).config = s.config := rfl

@[simp] theorem setAcc_x (s : State) (r : Acc) (v : Byte) : (s.setAcc r v).x = s.x := by cases r <;> rfl
@[simp] theorem setAcc_sp (s : State) (r : Acc) (v : Byte) : (s.setAcc r v).sp = s.sp := by cases r <;> rfl
@[simp] theorem setAcc_pc (s : State) (r : Acc) (v : Byte) : (s.setAcc r v).pc = s.pc := by cases r <;> rfl
@[simp] theorem setAcc_cc (s : State) (r : Acc) (v : Byte) : (s.setAcc r v).cc = s.cc := by cases r <;> rfl
@[simp] theorem setAcc_nmiPending (s : State) (r : Acc) (v : Byte) : (s.setAcc r v).nmiPending = s.nmiPending := by cases r <;> rfl
@[simp] theorem setAcc_waiWait (s : State) (r : Acc) (v : Byte) : (s.setAcc r v).waiWait = s.waiWait := by cases r <;> rfl
@[simp] theorem setAcc_fault (s : State) (r : Acc) (v : Byte) : (s.setAcc r v).fault = s.fault := by cases r <;> rfl
@[simp] theorem setAcc_mem (s : State) (r : Acc) (v : Byte) : (s.setAcc r v).mem = s.mem := by cases r <;> rfl
@[simp] theorem setAcc_portA (s : State) (r : Acc) (v : Byte) : (s.setAcc r v).portA = s.portA := by cases r <;> rfl
@[simp] theorem setAcc_portB (s : State) (r : Acc) (v : Byte) : (s.setAcc r v).portB = s.portB := by cases r <;> rfl
@[simp] theorem setAcc_cvsd (s : State) (r : Acc) (v : Byte) : (s.setAcc r v).cvsd = s.cvsd := by cases r <;> rfl
@[simp] theorem setAcc_draws (s : State) (r : Acc) (v : Byte) : (s.setAcc r v).draws = s.draws := by cases r <;> rfl
@[simp] theorem setAcc_config (s : State) (r : Acc) (v : Byte) : (s.setAcc r v).config = s.config := by cases r <;> rfl
@[simp] theorem setPort_a (s : State) (p : PortId) (v : Port) : (s.setPort p v).a = s.a := by cases p <;> rfl
@[simp] theorem setPort_b (s : State) (p : PortId) (v : Port) : (s.setPort p v).b = s.b := by cases p <;> rfl
@[simp] theorem setPort_x (s : State) (p : PortId) (v : Port) : (s.setPort p v).x = s.x := by cases p <;> rfl
@[simp] theorem setPort_sp (s : State) (p : PortId) (v : Port) : (s.setPort p v).sp = s.sp := by cases p <;> rfl
@[simp] theorem setPort_pc (s : State) (p : PortId) (v : Port) : (s.setPort p v).pc = s.pc := by cases p <;> rfl
@[simp] theorem setPort_cc (s : State) (p : PortId) (v : Port) : (s.setPort p v).cc = s.cc := by cases p <;> rfl
@[simp] theorem setPort_nmiPending (s : State) (p : PortId) (v : Port) : (s.setPort p v).nmiPending = s.nmiPending := by cases p <;> rfl
@[simp] theorem setPort_waiWait (s : State) (p : PortId) (v : Port) : (s.setPort p v).waiWait = s.waiWait := by cases p <;> rfl
@[simp] theorem setPort_fault (s : State) (p : PortId) (v : Port) : (s.setPort p v).fault = s.fault := by cases p <;> rfl
@[simp] theorem setPort_mem (s : State) (p : PortId) (v : Port) : (s.setPort p v).mem = s.mem := by cases p <;> rfl
@[simp] theorem setPort_cvsd (s : State) (p : PortId) (v : Port) : (s.setPort p v).cvsd = s.cvsd := by cases p <;> rfl
@[simp] theorem setPort_draws (s : State) (p : PortId) (v : Port) : (s.setPort p v).draws = s.draws := by cases p <;> rfl
@[simp] theorem setPort_config (s : State) (p : PortId) (v : Port) : (s.setPort p v).config = s.config := by cases p <;> rfl

@[simp] theorem setAcc_acc (s : State) (r : Acc) (v : Byte) : (s.setAcc r v).acc r = v := by cases r <;> rfl
@[simp] theorem setPort_port (s : State) (p : PortId) (v : Port) : (s.setPort p v).port p = v := by cases p <;> rfl

theorem setAcc_acc_other (s : State) (r q : Acc) (v : Byte) (h : q ≠ r) : (s.setAcc r v).acc q = s.acc q := by
  cases r <;> cases q <;> simp_all [State.setAcc, State.acc]

theorem setPort_port_other (s : State) (p q : PortId) (v : Port) (h : q ≠ p) : (s.setPort p v).port q = s.port q := by
  cases p <;> cases q <;> simp_all [State.setPort, State.port]

@[simp] theorem setAcc_port (s : State) (r : Acc) (v : Byte) (p : PortId) : (s.setAcc r v).port p = s.port p := by
  cases r <;> rfl

@[simp] theorem setPort_acc (s : State) (p : PortId) (v : Port) (r : Acc) : (s.setPort p v).acc r = s.acc r := by
  cases p <;> rfl

@[simp] theorem setA_port (s : State) (v : Byte) (p : PortId) : (s.setA v).port p = s.port p := by cases p <;> rfl
@[simp] theorem setB_port (s : State) (v : Byte) (p : PortId) : (s.setB v).port p = s.port p := by cases p <;> rfl
@[simp] theorem setX_port (s : State) (v : Word) (p : PortId) : (s.setX v).port p = s.port p := by cases p <;> rfl
@[simp] theorem setX_acc (s : State) (v : Word) (r : Acc) : (s.setX v).acc r = s.acc r := by cases r <;> rfl
@[simp] theorem setSp_port (s : State) (v : Word) (p : PortId) : (s.setSp v).port p = s.port p := by cases p <;> rfl
@[simp] theorem setSp_acc (s : State) (v : Word) (r : Acc) : (s.setSp v).acc r = s.acc r := by cases r <;> rfl
@[simp] theorem setPc_port (s : State) (v : Word) (p : PortId) : (s.setPc v).port p = s.port p := by cases p <;> rfl
@[simp] theorem setPc_acc (s : State) (v : Word) (r : Acc) : (s.setPc v).acc r = s.acc r := by cases r <;> rfl
@[simp] theorem setCc_port (s : State) (v : CC) (p : PortId) : (s.setCc v).port p = s.port p := by cases p <;> rfl
@[simp] theorem setCc_acc (s : State) (v : CC) (r : Acc) : (s.setCc v).acc r = s.acc r := by cases r <;> rfl
@[simp] theorem setNmiPending_port (s : State) (v : Bool) (p : PortId) : (s.setNmiPending v).port p = s.port p := by cases p <;> rfl
@[simp] theorem setNmiPending_acc (s : State) (v : Bool) (r : Acc) : (s.setNmiPending v).acc r = s.acc r := by cases r <;> rfl
@[simp] theorem setWaiWait_port (s : State) (v : Bool) (p : PortId) : (s.setWaiWait v).port p = s.port p := by cases p <;> rfl
@[simp] theorem setWaiWait_acc (s : State) (v : Bool) (r : Acc) : (s.setWaiWait v).acc r = s.acc r := by cases r <;> rfl
@[simp] theorem setFault_port (s : State) (v : Option Fault) (p : PortId) : (s.setFault v).port p = s.port p := by cases p <;> rfl
@[simp] theorem setFault_acc (s : State) (v : Option Fault) (r : Acc) : (s.setFault v).acc r = s.acc r := by cases r <;> rfl
@[simp] theorem setMem_port (s : State) (v : Memory) (p : PortId) : (s.setMem v).port p = s.port p := by cases p <;> rfl
@[simp] theorem setMem_acc (s : State) (v : Memory) (r : Acc) : (s.setMem v).acc r = s.acc r := by cases r <;> rfl
@[simp] theorem setPortA_acc (s : State) (v : Port) (r : Acc) : (s.setPortA v).acc r = s.acc r := by cases r <;> rfl
@[simp] theorem setPortB_acc (s : State) (v : Port) (r : Acc) : (s.setPortB v).acc r = s.acc r := by cases r <;> rfl
@[simp] theorem setCvsd_port (s : State) (v : Cvsd) (p : PortId) : (s.setCvsd v).port p = s.port p := by cases p <;> rfl
@[simp] theorem setCvsd_acc (s : State) (v : Cvsd) (r : Acc) : (s.setCvsd v).acc r = s.acc r := by cases r <;> rfl
@[simp] theorem setDraws_port (s : State) (v : Nat) (p : PortId) : (s.setDraws v).port p = s.port p := by cases p <;> rfl
@[simp] theorem setDraws_acc (s : State) (v : Nat) (r : Acc) : (s.setDraws v).acc r = s.acc r := by cases r <;> rfl

end Sys2Proof.Laws
end

