-- ==== Sys2Proof/Laws/Ops.lean ====
section
/-! SUPPORT. What the shared operations can do, said once each: sequencing, bus reads and writes, the PIA, the stack. -/

namespace Sys2Proof.Laws

open Sys2Proof.Machine Sys2Proof.Safety

/-! Sequencing. -/

@[simp] theorem bind_ok {α β : Type} (v : α) (s : State) (k : α → State → Res β) : (Res.ok v s).bind k = k v s := rfl

@[simp] theorem bind_fault {α β : Type} (f : Fault) (k : α → State → Res β) :
    (Res.fault f : Res α).bind k = .fault f := rfl

@[simp] theorem outcome_ok (u : Unit) (s : State) : (Res.ok u s).outcome = .next s := rfl

@[simp] theorem outcome_fault (f : Fault) : (Res.fault f : Res Unit).outcome = .fault f := rfl

/-- A sequence succeeds exactly when both its parts do. -/
theorem bind_eq_ok {α β : Type} {r : Res α} {k : α → State → Res β} {v : β} {t : State} :
    r.bind k = .ok v t ↔ ∃ w u, r = .ok w u ∧ k w u = .ok v t := by
  cases r with
  | ok w u => exact ⟨fun h => ⟨w, u, rfl, h⟩, fun ⟨_, _, h, hk⟩ => by cases h; exact hk⟩
  | fault f => exact ⟨(nomatch ·), fun ⟨_, _, h, _⟩ => nomatch h⟩

/-- A step that ends with an operation goes on exactly when the operation succeeds. -/
theorem outcome_eq_next {r : Res Unit} {t : State} : r.outcome = .next t ↔ r = .ok () t := by
  cases r with
  | ok u s => exact ⟨fun h => by cases h; rfl, fun h => by cases h; rfl⟩
  | fault f => exact ⟨(nomatch ·), (nomatch ·)⟩

/-- A region an address resolves to is in the map and holds it (R30). -/
theorem resolve_mem {c : Config} {addr : Word} {r : Region} (h : resolve c addr = some r) :
    r ∈ c.regions ∧ regionHolds r addr = true :=
  ⟨List.mem_of_find?_eq_some h, List.find?_some (p := fun r => regionHolds r addr) h⟩

/-! Plain memory. -/

/-- `peek` sees the configuration and the RAM only. -/
theorem peek_congr {s t : State} (hc : t.config = s.config) (hm : t.mem = s.mem) (addr : Word) :
    peek addr t = peek addr s := by
  unfold peek
  rw [hc, hm]

/-- A bus read of RAM or ROM gives the byte there and leaves the state as it was (R31, R32). -/
theorem memRead8_of_peek {s : State} {addr : Word} {v : Byte} (h : peek addr s = some v) :
    memRead8 addr s = .ok v s := by
  unfold peek at h
  unfold memRead8
  split at h
  · exact nomatch h
  · split at h <;> simp_all

/-- What a bus read can do: give the byte of RAM or ROM and change nothing, or be the PIA's answer (R34). -/
theorem memRead8_cases {s t : State} {addr : Word} {v : Byte} (h : memRead8 addr s = .ok v t) :
    (peek addr s = some v ∧ t = s) ∨
      ∃ r, resolve s.config addr = some r ∧ r.owner = .pia ∧
        v = (piaRead (addr - r.lo).toNat s).1 ∧ t = (piaRead (addr - r.lo).toNat s).2 := by
  unfold memRead8 at h
  split at h
  · exact nomatch h
  next r hr =>
    split at h
    next ho =>
      obtain ⟨rfl, rfl⟩ := Res.ok.inj h
      exact .inl ⟨by simp [peek, hr, ho], rfl⟩
    next k ho =>
      obtain ⟨rfl, rfl⟩ := Res.ok.inj h
      exact .inl ⟨by simp [peek, hr, ho], rfl⟩
    next ho =>
      obtain ⟨rfl, rfl⟩ := Res.ok.inj h
      exact .inr ⟨r, hr, ho, rfl, rfl⟩

/-- A bus write to writable RAM replaces the byte (R31, R35). -/
theorem memWrite8_of_storable {s : State} {addr : Word} (v : Byte) (h : storable s addr) :
    memWrite8 addr v s = .ok () (s.setMem (s.mem.write addr.toNat v)) := by
  obtain ⟨r, hr, ho, hw⟩ := h
  simp [memWrite8, hr, ho, hw]

/-- What a bus write can do: replace a byte of RAM, or reach the PIA (R35). -/
theorem memWrite8_cases {s t : State} {addr : Word} {v : Byte} {u : Unit} (h : memWrite8 addr v s = .ok u t) :
    (storable s addr ∧ t = s.setMem (s.mem.write addr.toNat v)) ∨
      ∃ r, resolve s.config addr = some r ∧ r.owner = .pia ∧ r.writable = true ∧
        t = piaWrite (addr - r.lo).toNat v s := by
  unfold memWrite8 at h
  split at h
  · exact nomatch h
  next r hr =>
    split at h
    next hw =>
      split at h
      next ho => exact .inl ⟨⟨r, hr, ho, hw⟩, (Res.ok.inj h).2.symm⟩
      · exact nomatch h
      next ho => exact .inr ⟨r, hr, ho, hw, (Res.ok.inj h).2.symm⟩
    · exact nomatch h

/-- What `peek` sees after a byte of RAM was replaced. -/
theorem peek_setMem {s : State} {addr : Word} (v : Byte) (h : storable s addr) (a : Word) :
    peek a (s.setMem (s.mem.write addr.toNat v)) = if a = addr then some v else peek a s := by
  obtain ⟨r, hr, ho, hw⟩ := h
  by_cases ha : a = addr
  · subst ha
    simp [peek, hr, ho, memory_read_write]
  · have hne : a.toNat ≠ addr.toNat := fun h => ha (BitVec.eq_of_toNat_eq h)
    simp only [peek, setMem_config, setMem_mem, memory_read_write, if_neg ha, if_neg hne]

/-- An address of the PIA is none `peek` reads. -/
theorem peek_pia {s : State} {addr : Word} {r : Region} (hr : resolve s.config addr = some r) (ho : r.owner = .pia) :
    peek addr s = none := by
  simp [peek, hr, ho]

/-! The PIA. -/

theorem piaRead_cases (idx : Nat) (s : State) :
    (piaRead idx s).2 = s ∨
      (idx % 2 ≠ 1 ∧ dataSelected (s.port (piaPort idx)) = true ∧
        (piaRead idx s).2 = s.setPort (piaPort idx) (portAcknowledge (s.port (piaPort idx)))) := by
  unfold piaRead
  dsimp only
  split
  · exact .inl rfl
  · split
    next h1 h2 => exact .inr ⟨h1, h2, rfl⟩
    · exact .inl rfl

/-- A PIA read changes nothing but the two ports. -/
theorem piaRead_frame (idx : Nat) (s : State) :
    (piaRead idx s).2 = { s with portA := (piaRead idx s).2.portA, portB := (piaRead idx s).2.portB } := by
  rcases piaRead_cases idx s with h | ⟨_, _, h⟩
  · rw [h]
  · rw [h]; cases piaPort idx <;> rfl

theorem writeControl_frame (p : PortId) (v : Byte) (s : State) :
    writeControl p v s = { s with
      portA := (writeControl p v s).portA, portB := (writeControl p v s).portB, cvsd := (writeControl p v s).cvsd } := by
  unfold writeControl
  dsimp only
  split <;> cases p <;> rfl

/-- A PIA write changes nothing but the two ports and the decoder. -/
theorem piaWrite_frame (idx : Nat) (v : Byte) (s : State) :
    piaWrite idx v s = { s with
      portA := (piaWrite idx v s).portA, portB := (piaWrite idx v s).portB, cvsd := (piaWrite idx v s).cvsd } := by
  unfold piaWrite
  dsimp only
  split
  · exact writeControl_frame _ v s
  · split <;> cases piaPort idx <;> rfl

/-! Frames of the bus. -/

/-- A bus read changes nothing but the ports of the PIA. -/
theorem memRead8_frame {s t : State} {addr : Word} {v : Byte} (h : memRead8 addr s = .ok v t) :
    t = { s with portA := t.portA, portB := t.portB } := by
  rcases memRead8_cases h with ⟨_, rfl⟩ | ⟨r, _, _, _, rfl⟩
  · rfl
  · exact piaRead_frame _ s

/-- A bus write changes nothing but RAM, the ports of the PIA and the decoder. -/
theorem memWrite8_frame {s t : State} {addr : Word} {v : Byte} {u : Unit} (h : memWrite8 addr v s = .ok u t) :
    t = { s with mem := t.mem, portA := t.portA, portB := t.portB, cvsd := t.cvsd } := by
  rcases memWrite8_cases h with ⟨_, rfl⟩ | ⟨r, _, _, _, rfl⟩
  · rfl
  · rw [piaWrite_frame]

/-- A bus read leaves every byte of RAM and ROM as it was. -/
theorem memRead8_peek {s t : State} {addr : Word} {v : Byte} (h : memRead8 addr s = .ok v t) (a : Word) :
    peek a t = peek a s := by
  rw [memRead8_frame h]; rfl

/-- A bus write leaves every byte of RAM and ROM but the one at its address as it was. -/
theorem memWrite8_peek {s t : State} {addr : Word} {v : Byte} {u : Unit} (h : memWrite8 addr v s = .ok u t) (a : Word)
    (ha : a ≠ addr) : peek a t = peek a s := by
  rcases memWrite8_cases h with ⟨hs, rfl⟩ | ⟨r, hr, ho, _, rfl⟩
  · rw [peek_setMem v hs, if_neg ha]
  · rw [piaWrite_frame]; rfl

/-! The word view. -/

@[simp] theorem byteHi_joinBytes (hi lo : Byte) : byteHi (joinBytes hi lo) = hi := by
  unfold byteHi joinBytes
  ext i hi'
  rw [BitVec.getElem_extractLsb', BitVec.getLsbD_append, if_neg (by omega), Nat.add_sub_cancel_left,
    BitVec.getLsbD_eq_getElem hi']

@[simp] theorem byteLo_joinBytes (hi lo : Byte) : byteLo (joinBytes hi lo) = lo := by
  unfold byteLo joinBytes
  ext i hi'
  rw [BitVec.getElem_extractLsb', BitVec.getLsbD_append, if_pos (by omega), Nat.zero_add, BitVec.getLsbD_eq_getElem hi']

@[simp] theorem joinBytes_byteHi_byteLo (w : Word) : joinBytes (byteHi w) (byteLo w) = w := by
  unfold byteHi byteLo joinBytes
  ext i hi'
  simp only [BitVec.getElem_append, BitVec.getElem_extractLsb']
  split
  next h => simp [BitVec.getLsbD_eq_getElem, hi']
  next h => rw [show 8 + (i - 8) = i by omega]; simp [BitVec.getLsbD_eq_getElem, hi']

/-- The more significant byte as a quotient (R37). -/
theorem byteHi_eq_ofNat (v : Word) : byteHi v = BitVec.ofNat 8 (v.toNat / 256) := by
  apply BitVec.eq_of_toNat_eq
  simp [byteHi, Nat.shiftRight_eq_div_pow]

/-- The less significant byte as a remainder (R37). -/
theorem byteLo_eq_ofNat (v : Word) : byteLo v = BitVec.ofNat 8 v.toNat := by
  apply BitVec.eq_of_toNat_eq
  simp [byteLo]

/-- The number of a word from its bytes (R36). -/
theorem joinBytes_toNat (hi lo : Byte) : (joinBytes hi lo).toNat = 256 * hi.toNat + lo.toNat := by
  unfold joinBytes
  rw [BitVec.toNat_append, Nat.shiftLeft_eq, Nat.mul_comm, ← Nat.two_pow_add_eq_or_of_lt lo.isLt]

/-- The flags survive the trip through the byte a push stores and a pull restores (R13, D28). -/
@[simp] theorem ofByte_toByte (cc : CC) : CC.ofByte cc.toByte = cc := by
  obtain ⟨h, i, n, z, v, c⟩ := cc
  revert h i n z v c
  decide

/-! The effect of an operand read. -/

/-- An 8-bit operand read changes nothing but the ports of the PIA. -/
theorem operand8_frame {src : Src8} {s t : State} {m : Byte} (h : operand8 src s = .ok m t) :
    t = { s with portA := t.portA, portB := t.portB } := by
  cases src with
  | imm v => obtain ⟨_, rfl⟩ := Res.ok.inj h; rfl
  | mem a => exact memRead8_frame h

/-- A word read changes nothing but the ports of the PIA. -/
theorem memRead16_frame {s t : State} {addr v : Word} (h : memRead16 addr s = .ok v t) :
    t = { s with portA := t.portA, portB := t.portB } := by
  obtain ⟨_, s1, h1, h⟩ := bind_eq_ok.1 h
  obtain ⟨_, s2, h2, h⟩ := bind_eq_ok.1 h
  obtain ⟨_, rfl⟩ := Res.ok.inj h
  rw [memRead8_frame h2, memRead8_frame h1]

/-- A word write changes nothing but RAM, the ports of the PIA and the decoder. -/
theorem memWrite16_frame {s t : State} {addr v : Word} {u : Unit} (h : memWrite16 addr v s = .ok u t) :
    t = { s with mem := t.mem, portA := t.portA, portB := t.portB, cvsd := t.cvsd } := by
  obtain ⟨_, s1, h1, h2⟩ := bind_eq_ok.1 h
  rw [memWrite8_frame h2, memWrite8_frame h1]

/-- A 16-bit operand read changes nothing but the ports of the PIA. -/
theorem operand16_frame {src : Src16} {s t : State} {m : Word} (h : operand16 src s = .ok m t) :
    t = { s with portA := t.portA, portB := t.portB } := by
  cases src with
  | imm v => obtain ⟨_, rfl⟩ := Res.ok.inj h; rfl
  | mem a => exact memRead16_frame h

/-! The stack. -/

/-- A push writes the byte at SP and decrements SP; it changes nothing else but what the write reaches (R40). -/
theorem push8_cases {s t : State} {v : Byte} {u : Unit} (h : push8 v s = .ok u t) :
    ∃ s1, memWrite8 s.sp v s = .ok () s1 ∧ t = s1.setSp (s.sp - 1) := by
  obtain ⟨_, s1, h1, h⟩ := bind_eq_ok.1 h
  obtain ⟨_, rfl⟩ := Res.ok.inj h
  exact ⟨s1, h1, by rw [memWrite8_frame h1]⟩

/-- A push onto writable RAM (R40). -/
theorem push8_of_storable {s : State} (v : Byte) (h : storable s s.sp) :
    push8 v s = .ok () ((s.setMem (s.mem.write s.sp.toNat v)).setSp (s.sp - 1)) := by
  simp [push8, memWrite8_of_storable v h]

/-- A pull increments SP and reads the byte there; it changes nothing else but what the read reaches (R41). -/
theorem pull8_frame {s t : State} {v : Byte} (h : pull8 s = .ok v t) :
    t = { s with sp := s.sp + 1, portA := t.portA, portB := t.portB } := by
  rw [memRead8_frame h]; rfl

/-- A pull from RAM or ROM (R41). -/
theorem pull8_of_peek {s : State} {v : Byte} (h : peek (s.sp + 1) s = some v) :
    pull8 s = .ok v (s.setSp (s.sp + 1)) :=
  memRead8_of_peek (by rwa [peek_congr rfl rfl] : peek (s.sp + 1) (s.setSp (s.sp + 1)) = some v)

/-- A fetch advances PC by one; it changes nothing else but what the read reaches (R62). -/
theorem fetch8_frame {s t : State} {v : Byte} (h : fetch8 s = .ok v t) :
    t = { s with pc := s.pc + 1, portA := t.portA, portB := t.portB } := by
  obtain ⟨_, s1, h1, h⟩ := bind_eq_ok.1 h
  obtain ⟨_, rfl⟩ := Res.ok.inj h
  rw [memRead8_frame h1]; rfl

/-- A fetch from RAM or ROM (R62). -/
theorem fetch8_of_peek {s : State} {v : Byte} (h : peek s.pc s = some v) : fetch8 s = .ok v (s.setPc (s.pc + 1)) := by
  simp [fetch8, memRead8_of_peek h]

/-- `State.reset` is what the construction of the machine gives in configuration TC with every unspecified value zero (R280,
log entries 2 to 4). -/
theorem reset_is_construct :
    construct Config.tc
      { a := 0, b := 0, x := 0, sp := 0, h := false, n := false, z := false, v := false, c := false, ram := [] } =
      State.reset := by
  decide +kernel

end Sys2Proof.Laws
end

