-- ==== Sys2Proof/Laws/Shapes.lean ====
section
/-! SUPPORT. What each shape of instruction and each multi-byte operation can do, said once each (Operands.lean, Ops.lean). -/

namespace Sys2Proof.Laws

open Sys2Proof.Machine Sys2Proof.Safety

/-! Addresses counted down from one word. -/

theorem sub_sub_eq (w : Word) {i j k : Word} (h : i + j = k) : w - i - j = w - k := by
  rw [BitVec.sub_sub, h]

theorem add_add_eq (w : Word) {i j k : Word} (h : i + j = k) : w + i + j = w + k := by
  rw [BitVec.add_assoc, h]

theorem sub_ne_sub (w : Word) {i j : Word} (h : i ≠ j) : w - i ≠ w - j := fun e =>
  h (BitVec.neg_inj.1 (BitVec.add_right_inj w |>.1 (by rwa [← BitVec.sub_eq_add_neg, ← BitVec.sub_eq_add_neg])))

theorem sub_ne_self (w : Word) {i : Word} (h : i ≠ 0) : w - i ≠ w := fun e =>
  sub_ne_sub w h (e.trans (BitVec.sub_zero w).symm)

/-! Accumulators under the updates that leave them. -/

@[simp] theorem acc_setCc (s : State) (r : Acc) (cc : CC) : (s.setCc cc).acc r = s.acc r := by cases r <;> rfl

theorem operand8_acc {src : Src8} {s t : State} {m : Byte} (h : operand8 src s = .ok m t) (r : Acc) :
    t.acc r = s.acc r := by
  rw [operand8_frame h]; cases r <;> rfl

/-! Shapes. -/

/-- An accumulator operation reads its operand, then writes the accumulator and the flags (R103). -/
theorem accOperand_cases {f : Byte → Byte → CC → Alu} {r : Acc} {src : Src8} {s t : State} {u : Unit}
    (h : accOperand f r src s = .ok u t) :
    ∃ m s1, operand8 src s = .ok m s1 ∧
      t = (s1.setAcc r (f (s.acc r) m s.cc).value).setCc (f (s.acc r) m s.cc).cc := by
  obtain ⟨m, s1, h1, h⟩ := bind_eq_ok.1 h
  obtain ⟨_, rfl⟩ := Res.ok.inj h
  have hc : s1.cc = s.cc := by rw [operand8_frame h1]
  exact ⟨m, s1, h1, by rw [operand8_acc h1, hc]⟩

/-- An accumulator test reads its operand, then writes the flags (R109). -/
theorem accTest_cases {f : Byte → Byte → CC → CC} {r : Acc} {src : Src8} {s t : State} {u : Unit}
    (h : accTest f r src s = .ok u t) :
    ∃ m s1, operand8 src s = .ok m s1 ∧ t = s1.setCc (f (s.acc r) m s.cc) := by
  obtain ⟨m, s1, h1, h⟩ := bind_eq_ok.1 h
  obtain ⟨_, rfl⟩ := Res.ok.inj h
  have hc : s1.cc = s.cc := by rw [operand8_frame h1]
  exact ⟨m, s1, h1, by rw [operand8_acc h1, hc]⟩

/-- A read-modify-write of memory is one read and one write at the same address, then the flags (R38). -/
theorem memModify_cases {f : Byte → CC → Alu} {ea : IdxExt} {s t : State} {u : Unit}
    (h : memModify f ea s = .ok u t) :
    ∃ v s1 s2, memRead8 (effAddr ea.toMem s) s = .ok v s1 ∧
      memWrite8 (effAddr ea.toMem s) (f v s.cc).value s1 = .ok () s2 ∧ t = s2.setCc (f v s.cc).cc := by
  obtain ⟨v, s1, h1, h⟩ := bind_eq_ok.1 h
  obtain ⟨_, s2, h2, h⟩ := bind_eq_ok.1 h
  obtain ⟨_, rfl⟩ := Res.ok.inj h
  have hc : s1.cc = s.cc := by rw [memRead8_frame h1]
  exact ⟨v, s1, s2, h1, hc ▸ h2, by rw [hc]⟩

/-- A branch moves PC or nothing (R140). -/
theorem branch_eq (cond : Cond) (rel : Byte) (s : State) :
    branch cond rel s = .ok () (if condHolds cond s.cc then s.setPc (s.pc + sext16 rel) else s) := by
  unfold branch; split <;> rfl

/-- A word push is two byte pushes (R42). -/
theorem push16_cases {s t : State} {v : Word} {u : Unit} (h : push16 v s = .ok u t) :
    ∃ s1, push8 (byteLo v) s = .ok () s1 ∧ push8 (byteHi v) s1 = .ok () t := by
  obtain ⟨_, s1, h1, h⟩ := bind_eq_ok.1 h
  exact ⟨s1, h1, h⟩

/-- A push changes SP, what a write at SP reaches, and nothing else (R40). -/
theorem push8_frame {s t : State} {v : Byte} {u : Unit} (h : push8 v s = .ok u t) :
    t = { s with mem := t.mem, portA := t.portA, portB := t.portB, cvsd := t.cvsd, sp := s.sp - 1 } := by
  obtain ⟨s1, h1, rfl⟩ := push8_cases h
  rw [memWrite8_frame h1]; rfl

theorem push8_peek {s t : State} {v : Byte} {u : Unit} (h : push8 v s = .ok u t) (a : Word) (ha : a ≠ s.sp) :
    peek a t = peek a s := by
  obtain ⟨s1, h1, rfl⟩ := push8_cases h
  rw [← memWrite8_peek h1 a ha]; rfl

/-- One change of SP and of what a write reaches, after another. -/
theorem stackFrame_trans {s t u : State} {p q : Word}
    (h1 : t = { s with mem := t.mem, portA := t.portA, portB := t.portB, cvsd := t.cvsd, sp := p })
    (h2 : u = { t with mem := u.mem, portA := u.portA, portB := u.portB, cvsd := u.cvsd, sp := q }) :
    u = { s with mem := u.mem, portA := u.portA, portB := u.portB, cvsd := u.cvsd, sp := q } := by
  rw [h2, h1]

theorem push16_frame {s t : State} {v : Word} {u : Unit} (h : push16 v s = .ok u t) :
    t = { s with mem := t.mem, portA := t.portA, portB := t.portB, cvsd := t.cvsd, sp := s.sp - 2 } := by
  obtain ⟨s1, h1, h2⟩ := push16_cases h
  have e : s1.sp - 1 = s.sp - 2 := by rw [push8_frame h1]; exact sub_sub_eq s.sp (by decide)
  exact e ▸ stackFrame_trans (push8_frame h1) (push8_frame h2)

theorem push16_peek {s t : State} {v : Word} {u : Unit} (h : push16 v s = .ok u t) (a : Word) (h0 : a ≠ s.sp)
    (h1 : a ≠ s.sp - 1) : peek a t = peek a s := by
  obtain ⟨s1, hs, ht⟩ := push16_cases h
  have : s1.sp = s.sp - 1 := by rw [push8_frame hs]
  rw [push8_peek ht a (this ▸ h1), push8_peek hs a h0]

/-- A call pushes PC and goes to its target (R157, R159). -/
theorem call_cases {target : Word} {s t : State} {u : Unit} (h : call target s = .ok u t) :
    ∃ s1, push16 s.pc s = .ok () s1 ∧ t = s1.setPc target := by
  obtain ⟨_, s1, h1, h⟩ := bind_eq_ok.1 h
  exact ⟨s1, h1, (Res.ok.inj h).2.symm⟩

/-- The five pushes of `StackAll` (R224). -/
theorem stackAll_cases {s t : State} {u : Unit} (h : stackAll s = .ok u t) :
    ∃ s1 s2 s3 s4, push16 s.pc s = .ok () s1 ∧ push16 s.x s1 = .ok () s2 ∧ push8 s.a s2 = .ok () s3 ∧
      push8 s.b s3 = .ok () s4 ∧ push8 s.cc.toByte s4 = .ok () t := by
  obtain ⟨_, s1, h1, h⟩ := bind_eq_ok.1 h
  obtain ⟨_, s2, h2, h⟩ := bind_eq_ok.1 h
  obtain ⟨_, s3, h3, h⟩ := bind_eq_ok.1 h
  obtain ⟨_, s4, h4, h⟩ := bind_eq_ok.1 h
  have e1 : s1.x = s.x ∧ s1.a = s.a ∧ s1.b = s.b ∧ s1.cc = s.cc := by rw [push16_frame h1]; exact ⟨rfl, rfl, rfl, rfl⟩
  have e2 : s2.a = s1.a ∧ s2.b = s1.b ∧ s2.cc = s1.cc := by rw [push16_frame h2]; exact ⟨rfl, rfl, rfl⟩
  have e3 : s3.b = s2.b ∧ s3.cc = s2.cc := by rw [push8_frame h3]; exact ⟨rfl, rfl⟩
  have e4 : s4.cc = s3.cc := by rw [push8_frame h4]
  refine ⟨s1, s2, s3, s4, h1, e1.1 ▸ h2, ?_, ?_, ?_⟩
  · rw [← e1.2.1, ← e2.1]; exact h3
  · rw [← e1.2.2.1, ← e2.2.1, ← e3.1]; exact h4
  · rw [← e1.2.2.2, ← e2.2.2, ← e3.2, ← e4]; exact h

/-- Stacking changes SP and what its seven writes reach, and nothing else (R224). -/
theorem stackAll_frame {s t : State} {u : Unit} (h : stackAll s = .ok u t) :
    t = { s with mem := t.mem, portA := t.portA, portB := t.portB, cvsd := t.cvsd, sp := s.sp - 7 } := by
  obtain ⟨s1, s2, s3, s4, h1, h2, h3, h4, h5⟩ := stackAll_cases h
  have f := stackFrame_trans (stackFrame_trans (stackFrame_trans (stackFrame_trans (push16_frame h1) (push16_frame h2))
    (push8_frame h3)) (push8_frame h4)) (push8_frame h5)
  have e : s4.sp - 1 = s.sp - 7 := by
    rw [push8_frame h4, push8_frame h3, push16_frame h2, push16_frame h1]
    show s.sp - 2 - 2 - 1 - 1 - 1 = _
    simp only [BitVec.sub_sub]
    rfl
  exact e ▸ f

/-- Stacking leaves every byte of RAM and ROM outside the seven below the old SP (R224). -/
theorem stackAll_peek {s t : State} {u : Unit} (h : stackAll s = .ok u t) (a : Word)
    (ha : a ∉ (frameBytes s).map (·.1)) : peek a t = peek a s := by
  obtain ⟨s1, s2, s3, s4, h1, h2, h3, h4, h5⟩ := stackAll_cases h
  have e1 : s1.sp = s.sp - 2 := by rw [push16_frame h1]
  have e2 : s2.sp = s.sp - 4 := by rw [push16_frame h2, ← sub_sub_eq s.sp (by decide : (2 : Word) + 2 = 4), ← e1]
  have e3 : s3.sp = s.sp - 5 := by rw [push8_frame h3, ← sub_sub_eq s.sp (by decide : (4 : Word) + 1 = 5), ← e2]
  have e4 : s4.sp = s.sp - 6 := by rw [push8_frame h4, ← sub_sub_eq s.sp (by decide : (5 : Word) + 1 = 6), ← e3]
  simp only [frameBytes, List.map_cons, List.map_nil, List.mem_cons, List.not_mem_nil, or_false, not_or] at ha
  obtain ⟨a6, a5, a4, a3, a2, a1, a0⟩ := ha
  rw [push8_peek h5 a (e4 ▸ a6), push8_peek h4 a (e3 ▸ a5), push8_peek h3 a (e2 ▸ a4),
    push16_peek h2 a (e1 ▸ a2) (by rw [e1, sub_sub_eq s.sp (by decide : (2 : Word) + 1 = 3)]; exact a3),
    push16_peek h1 a a0 a1]

/-- Vectoring sets I and loads PC; it changes nothing else but what its two reads reach (R225). -/
theorem vectorTo_cases {vector : Word} {s t : State} {u : Unit} (h : vectorTo vector s = .ok u t) :
    ∃ target s1, memRead16 vector (s.setCc (s.cc.setI true)) = .ok target s1 ∧ t = s1.setPc target ∧
      t = { s with cc := s.cc.setI true, pc := target, portA := t.portA, portB := t.portB } := by
  obtain ⟨target, s1, h1, h⟩ := bind_eq_ok.1 h
  obtain ⟨_, rfl⟩ := Res.ok.inj h
  exact ⟨target, s1, h1, rfl, by rw [memRead16_frame h1]; rfl⟩

/-- A word pull moves SP by two and changes nothing else but what its reads reach (R43). -/
theorem pull16_frame {s t : State} {v : Word} (h : pull16 s = .ok v t) :
    t = { s with sp := s.sp + 2, portA := t.portA, portB := t.portB } := by
  obtain ⟨_, s1, h1, h⟩ := bind_eq_ok.1 h
  obtain ⟨_, s2, h2, h⟩ := bind_eq_ok.1 h
  obtain ⟨_, rfl⟩ := Res.ok.inj h
  have e : s1.sp + 1 = s.sp + 2 := by rw [pull8_frame h1]; exact add_add_eq s.sp (by decide)
  rw [pull8_frame h2, e, pull8_frame h1]

/-- Taking an interrupt changes the registers the rule names and what its bus accesses reach (R225). -/
theorem enter_frame {vector : Word} {stack : Bool} {s t : State} {u : Unit} (h : enter vector stack s = .ok u t) :
    t = { s with
      sp := t.sp, pc := t.pc, cc := s.cc.setI true, mem := t.mem, portA := t.portA, portB := t.portB, cvsd := t.cvsd } := by
  unfold enter at h
  split at h
  · obtain ⟨_, s1, h1, h2⟩ := bind_eq_ok.1 h
    obtain ⟨_, _, _, _, h3⟩ := vectorTo_cases h2
    rw [h3, stackAll_frame h1]
  · obtain ⟨_, _, _, _, h3⟩ := vectorTo_cases h
    rw [h3]

/-! The same operations on RAM and ROM. -/

theorem memRead16_of_peek {s : State} {addr : Word} {hi lo : Byte} (h0 : peek addr s = some hi)
    (h1 : peek (addr + 1) s = some lo) : memRead16 addr s = .ok (joinBytes hi lo) s := by
  rw [memRead16, memRead8_of_peek h0, bind_ok, memRead8_of_peek h1, bind_ok]

theorem pull16_of_peek {s : State} {hi lo : Byte} (h0 : peek (s.sp + 1) s = some hi) (h1 : peek (s.sp + 2) s = some lo) :
    pull16 s = .ok (joinBytes hi lo) (s.setSp (s.sp + 2)) := by
  have e : s.sp + 1 + 1 = s.sp + 2 := add_add_eq s.sp (by decide)
  have h1' : peek ((s.setSp (s.sp + 1)).sp + 1) (s.setSp (s.sp + 1)) = some lo := by
    rw [setSp_sp, e, ← h1]; exact peek_congr rfl rfl _
  rw [pull16, pull8_of_peek h0, bind_ok, pull8_of_peek h1', bind_ok, setSp_sp, e]
  rfl

/-- Vectoring through RAM or ROM (R225). -/
theorem vectorTo_of_peek {vector : Word} {s : State} {hi lo : Byte} (h0 : peek vector s = some hi)
    (h1 : peek (vector + 1) s = some lo) :
    vectorTo vector s = .ok () ((s.setCc (s.cc.setI true)).setPc (joinBytes hi lo)) := by
  have h0' : peek vector (s.setCc (s.cc.setI true)) = some hi := by rw [← h0]; exact peek_congr rfl rfl _
  have h1' : peek (vector + 1) (s.setCc (s.cc.setI true)) = some lo := by rw [← h1]; exact peek_congr rfl rfl _
  rw [vectorTo, memRead16_of_peek h0' h1', bind_ok]

theorem storable_congr {s t : State} (hc : t.config = s.config) {a : Word} (h : storable s a) : storable t a := by
  unfold storable at *
  rwa [hc]

theorem push8_eq_of_storable {s : State} (v : Byte) (h : storable s s.sp) :
    ∃ t, push8 v s = .ok () t ∧ peek s.sp t = some v ∧ t = { s with mem := t.mem, sp := s.sp - 1 } := by
  refine ⟨_, push8_of_storable v h, ?_, rfl⟩
  rw [← if_pos (rfl : s.sp = s.sp) (t := some v) (e := peek s.sp s), ← peek_setMem v h s.sp]
  exact peek_congr rfl rfl _

/-- Stacking onto RAM puts the seven bytes in their places (R224). -/
theorem stackAll_of_storable {s : State} (h : frameStorable s) :
    ∃ t, stackAll s = .ok () t ∧ t = { s with mem := t.mem, sp := s.sp - 7 } ∧ frameStacked s t := by
  simp only [frameStorable, frameBytes, List.forall_mem_cons, List.not_mem_nil, false_imp_iff, implies_true, and_true] at h
  obtain ⟨a6, a5, a4, a3, a2, a1, a0⟩ := h
  obtain ⟨s1, h1, p1, f1⟩ := push8_eq_of_storable (byteLo s.pc) a0
  have e1 : s1.sp = s.sp - 1 := by rw [f1]
  obtain ⟨s2, h2, p2, f2⟩ := push8_eq_of_storable (byteHi s.pc) (storable_congr (t := s1) (by rw [f1]) (e1 ▸ a1))
  have e2 : s2.sp = s.sp - 2 := by rw [f2, ← sub_sub_eq s.sp (by decide : (1 : Word) + 1 = 2), ← e1]
  have c2 : s2.config = s.config ∧ s2.x = s.x ∧ s2.a = s.a ∧ s2.b = s.b ∧ s2.cc = s.cc := by
    rw [f2, f1]; exact ⟨rfl, rfl, rfl, rfl, rfl⟩
  obtain ⟨s3, h3, p3, f3⟩ := push8_eq_of_storable (byteLo s2.x) (storable_congr (t := s2) c2.1 (e2 ▸ a2))
  have e3 : s3.sp = s.sp - 3 := by rw [f3, ← sub_sub_eq s.sp (by decide : (2 : Word) + 1 = 3), ← e2]
  obtain ⟨s4, h4, p4, f4⟩ := push8_eq_of_storable (byteHi s2.x)
    (storable_congr (t := s3) (by rw [f3]; exact c2.1) (e3 ▸ a3))
  have e4 : s4.sp = s.sp - 4 := by rw [f4, ← sub_sub_eq s.sp (by decide : (3 : Word) + 1 = 4), ← e3]
  have c4 : s4.config = s.config ∧ s4.a = s.a ∧ s4.b = s.b ∧ s4.cc = s.cc := by
    rw [f4, f3]; exact ⟨c2.1, c2.2.2⟩
  obtain ⟨s5, h5, p5, f5⟩ := push8_eq_of_storable s4.a (storable_congr (t := s4) c4.1 (e4 ▸ a4))
  have e5 : s5.sp = s.sp - 5 := by rw [f5, ← sub_sub_eq s.sp (by decide : (4 : Word) + 1 = 5), ← e4]
  have c5 : s5.config = s.config ∧ s5.b = s.b ∧ s5.cc = s.cc := by rw [f5]; exact ⟨c4.1, c4.2.2⟩
  obtain ⟨s6, h6, p6, f6⟩ := push8_eq_of_storable s5.b (storable_congr (t := s5) c5.1 (e5 ▸ a5))
  have e6 : s6.sp = s.sp - 6 := by rw [f6, ← sub_sub_eq s.sp (by decide : (5 : Word) + 1 = 6), ← e5]
  have c6 : s6.config = s.config ∧ s6.cc = s.cc := by rw [f6]; exact ⟨c5.1, c5.2.2⟩
  obtain ⟨s7, h7, p7, f7⟩ := push8_eq_of_storable s6.cc.toByte (storable_congr (t := s6) c6.1 (e6 ▸ a6))
  have hs : stackAll s = .ok () s7 := by
    simp only [stackAll, push16, h1, h2, h3, h4, h5, h6, h7, bind_ok]
  refine ⟨s7, hs, ?_, ?_, fun a ha => stackAll_peek hs a ha⟩
  · rw [f7, e6, sub_sub_eq s.sp (by decide : (6 : Word) + 1 = 7), f6, f5, f4, f3, f2, f1]
  · rw [c2.2.1] at p3 p4
    rw [c4.2.1] at p5
    rw [c5.2.1] at p6
    rw [c6.2] at p7
    simp only [frameBytes, List.forall_mem_cons, List.not_mem_nil, false_imp_iff, implies_true, and_true]
    rw [e1] at p2
    rw [e2] at p3
    rw [e3] at p4
    rw [e4] at p5
    rw [e5] at p6
    rw [e6] at p7
    have k7 := fun a ha => push8_peek h7 a (e6 ▸ ha : a ≠ s6.sp)
    have k6 := fun a ha => push8_peek h6 a (e5 ▸ ha : a ≠ s5.sp)
    have k5 := fun a ha => push8_peek h5 a (e4 ▸ ha : a ≠ s4.sp)
    have k4 := fun a ha => push8_peek h4 a (e3 ▸ ha : a ≠ s3.sp)
    have k3 := fun a ha => push8_peek h3 a (e2 ▸ ha : a ≠ s2.sp)
    have k2 := fun a ha => push8_peek h2 a (e1 ▸ ha : a ≠ s1.sp)
    refine ⟨p7, ?_, ?_, ?_, ?_, ?_, ?_⟩
    · rw [k7 _ (sub_ne_sub s.sp (by decide)), p6]
    · rw [k7 _ (sub_ne_sub s.sp (by decide)), k6 _ (sub_ne_sub s.sp (by decide)), p5]
    · rw [k7 _ (sub_ne_sub s.sp (by decide)), k6 _ (sub_ne_sub s.sp (by decide)), k5 _ (sub_ne_sub s.sp (by decide)), p4]
    · rw [k7 _ (sub_ne_sub s.sp (by decide)), k6 _ (sub_ne_sub s.sp (by decide)), k5 _ (sub_ne_sub s.sp (by decide)), k4 _ (sub_ne_sub s.sp (by decide)), p3]
    · rw [k7 _ (sub_ne_sub s.sp (by decide)), k6 _ (sub_ne_sub s.sp (by decide)), k5 _ (sub_ne_sub s.sp (by decide)), k4 _ (sub_ne_sub s.sp (by decide)), k3 _ (sub_ne_sub s.sp (by decide)), p2]
    · rw [k7 _ ((sub_ne_self s.sp (by decide)).symm), k6 _ ((sub_ne_self s.sp (by decide)).symm), k5 _ ((sub_ne_self s.sp (by decide)).symm), k4 _ ((sub_ne_self s.sp (by decide)).symm), k3 _ ((sub_ne_self s.sp (by decide)).symm), k2 _ ((sub_ne_self s.sp (by decide)).symm), p1]

/-- Whether an address reads as RAM or ROM depends on the configuration alone. -/
theorem readable_congr {s t : State} (hc : t.config = s.config) (a : Word) : readable t a ↔ readable s a := by
  unfold readable peek
  rw [hc]
  cases resolve s.config a with
  | none => exact Iff.rfl
  | some r => dsimp only; split <;> exact Iff.rfl

/-- The return from an interrupt pulls seven bytes (R210). -/
theorem returnFromInterrupt_of_peek {s : State} {c b a xh xl ph pl : Byte}
    (h1 : peek (s.sp + 1) s = some c) (h2 : peek (s.sp + 2) s = some b) (h3 : peek (s.sp + 3) s = some a)
    (h4 : peek (s.sp + 4) s = some xh) (h5 : peek (s.sp + 5) s = some xl) (h6 : peek (s.sp + 6) s = some ph)
    (h7 : peek (s.sp + 7) s = some pl) :
    returnFromInterrupt s = .ok () { s with
      cc := CC.ofByte c, b := b, a := a, x := joinBytes xh xl, pc := joinBytes ph pl, sp := s.sp + 7 } := by
  have pk : ∀ (u : State) (k j : Word) (v : Byte), u.config = s.config → u.mem = s.mem → u.sp + k = s.sp + j →
      peek (s.sp + j) s = some v → peek (u.sp + k) u = some v := by
    intro u k j v hc hm e h
    rw [peek_congr hc hm, e, h]
  have e1 := pull8_of_peek h1
  let s1 := (s.setSp (s.sp + 1)).setCc (CC.ofByte c)
  have e2 : pull8 s1 = .ok b (s1.setSp (s1.sp + 1)) :=
    pull8_of_peek (pk s1 1 2 b rfl rfl (by show s.sp + 1 + 1 = _; simp only [BitVec.add_assoc]; rfl) h2)
  let s2 := (s1.setSp (s1.sp + 1)).setB b
  have e3 : pull8 s2 = .ok a (s2.setSp (s2.sp + 1)) :=
    pull8_of_peek (pk s2 1 3 a rfl rfl (by show s.sp + 1 + 1 + 1 = _; simp only [BitVec.add_assoc]; rfl) h3)
  let s3 := (s2.setSp (s2.sp + 1)).setA a
  have e4 : pull16 s3 = .ok (joinBytes xh xl) (s3.setSp (s3.sp + 2)) :=
    pull16_of_peek (pk s3 1 4 xh rfl rfl (by show s.sp + 1 + 1 + 1 + 1 = _; simp only [BitVec.add_assoc]; rfl) h4)
      (pk s3 2 5 xl rfl rfl (by show s.sp + 1 + 1 + 1 + 2 = _; simp only [BitVec.add_assoc]; rfl) h5)
  let s4 := (s3.setSp (s3.sp + 2)).setX (joinBytes xh xl)
  have e5 : pull16 s4 = .ok (joinBytes ph pl) (s4.setSp (s4.sp + 2)) :=
    pull16_of_peek (pk s4 1 6 ph rfl rfl (by show s.sp + 1 + 1 + 1 + 2 + 1 = _; simp only [BitVec.add_assoc]; rfl) h6)
      (pk s4 2 7 pl rfl rfl (by show s.sp + 1 + 1 + 1 + 2 + 2 = _; simp only [BitVec.add_assoc]; rfl) h7)
  have e : returnFromInterrupt s = .ok () ((s4.setSp (s4.sp + 2)).setPc (joinBytes ph pl)) := by
    unfold returnFromInterrupt
    simp only [e1, bind_ok]
    rw [e2]; simp only [bind_ok]
    rw [e3]; simp only [bind_ok]
    rw [e4]; simp only [bind_ok]
    rw [e5]; rfl
  rw [e]
  have e7 : s4.sp + 2 = s.sp + 7 := by
    show s.sp + 1 + 1 + 1 + 2 + 2 = _
    simp only [BitVec.add_assoc]
    rfl
  rw [e7]
  rfl

end Sys2Proof.Laws
end

