-- ==== Sys2Proof/Laws/Effects.lean ====
section
/-! SUPPORT. What each shared operation and each shape of instruction can reach outside the registers. -/

namespace Sys2Proof.Laws

open Sys2Proof.Machine Sys2Proof.Safety

/-- A change from `s` to `t` that stores to no address outside `st` and makes no data access outside `st` and `ld`: what that
leaves as it was. RAM and ROM outside `st`; the recorded fault, the configuration and the NMI latch; the PIA and the decoder if
no address is in the window; and, if none of `st` is, the decoder and each port, which a data-register read may have
acknowledged (R240). -/
structure Effect (s t : State) (st ld : List Word) : Prop where
  peek : ∀ a, a ∉ st → Machine.peek a t = Machine.peek a s
  fault : t.fault = s.fault
  config : t.config = s.config
  nmi : t.nmiPending = s.nmiPending
  devices : (∀ a ∈ st ++ ld, ¬ inWindow s a) → t.portA = s.portA ∧ t.portB = s.portB ∧ t.cvsd = s.cvsd
  passive : (∀ a ∈ st, ¬ inWindow s a) → t.cvsd = s.cvsd ∧ ∀ p,
    t.port p = s.port p ∨ t.port p = portAcknowledge (s.port p)

theorem Effect.refl (s : State) : Effect s s [] [] := ⟨fun _ _ => rfl, rfl, rfl, rfl, fun _ => ⟨rfl, rfl, rfl⟩, fun _ => ⟨rfl, fun _ => .inl rfl⟩⟩

/-- Acknowledging twice is acknowledging once (R240). -/
theorem portAcknowledge_idem (q : Port) : portAcknowledge (portAcknowledge q) = portAcknowledge q := by
  simp [portAcknowledge, BitVec.and_assoc]

theorem Effect.regs {s t u : State} {st ld} (h : Effect s t st ld) (hm : u.mem = t.mem) (hf : u.fault = t.fault) (hc : u.config = t.config) (hn : u.nmiPending = t.nmiPending) (ha : u.portA = t.portA) (hb : u.portB = t.portB) (hd : u.cvsd = t.cvsd) : Effect s u st ld := by
  have hp : ∀ p, u.port p = t.port p := by intro p; cases p <;> assumption
  refine ⟨fun a h' => (peek_congr hc hm a).trans (h.peek a h'), hf.trans h.fault, hc.trans h.config, hn.trans h.nmi, ?_, ?_⟩
  · intro w; rw [ha, hb, hd]; exact h.devices w
  · intro w; rw [hd]; refine ⟨(h.passive w).1, fun p => ?_⟩; rw [hp]; exact (h.passive w).2 p

theorem Effect.trans {s t u : State} {st ld st' ld'} (h : Effect s t st ld) (h' : Effect t u st' ld') : Effect s u (st ++ st') (ld ++ ld') := by
  have hw : ∀ a, inWindow t a ↔ inWindow s a := by intro a; unfold inWindow; rw [h.config]
  refine ⟨fun a ha => ?_, h'.fault.trans h.fault, h'.config.trans h.config, h'.nmi.trans h.nmi, fun w => ?_, fun w => ?_⟩
  · rw [List.mem_append, not_or] at ha; rw [h'.peek a ha.2, h.peek a ha.1]
  · obtain ⟨a1, a2, a3⟩ := h.devices fun a ha => w a (by simp at ha ⊢; tauto)
    obtain ⟨b1, b2, b3⟩ := h'.devices fun a ha => by rw [hw]; exact w a (by simp at ha ⊢; tauto)
    exact ⟨b1.trans a1, b2.trans a2, b3.trans a3⟩
  · obtain ⟨a1, a2⟩ := h.passive fun a ha => w a (by simp; tauto)
    obtain ⟨b1, b2⟩ := h'.passive fun a ha => by rw [hw]; exact w a (by simp; tauto)
    refine ⟨b1.trans a1, fun p => ?_⟩
    rcases a2 p with a | a <;> rcases b2 p with b | b <;> rw [b, a]
    · exact .inl rfl
    · exact .inr rfl
    · exact .inr rfl
    · exact .inr (portAcknowledge_idem _)

theorem Effect.sub {s t : State} {st ld st' ld'} (h : Effect s t st ld) (h1 : ∀ a ∈ st, a ∈ st') (h2 : ∀ a ∈ ld, a ∈ ld') : Effect s t st' ld' :=
  ⟨fun a ha => h.peek a fun h' => ha (h1 a h'), h.fault, h.config, h.nmi, fun w => h.devices fun a ha => w a (by simp at ha ⊢; rcases ha with ha | ha; exact .inl (h1 a ha); exact .inr (h2 a ha)), fun w => h.passive fun a ha => w a (h1 a ha)⟩

theorem effect_memRead8 {s t : State} {addr v} (h : memRead8 addr s = .ok v t) : Effect s t [] [addr] := by
  refine ⟨fun a _ => memRead8_peek h a, ?_, ?_, ?_, fun w => ?_, fun _ => ?_⟩
  iterate 3 rw [memRead8_frame h]
  · rcases memRead8_cases h with ⟨_, rfl⟩ | ⟨r, hr, ho, _⟩
    · exact ⟨rfl, rfl, rfl⟩
    · exact absurd ⟨r, hr, ho⟩ (w addr (by simp))
  · rcases memRead8_cases h with ⟨_, rfl⟩ | ⟨r, hr, ho, _, rfl⟩
    · exact ⟨rfl, fun _ => .inl rfl⟩
    · rcases piaRead_cases (addr - r.lo).toNat s with h | ⟨_, _, h⟩
      · rw [h]; exact ⟨rfl, fun _ => .inl rfl⟩
      · rw [h]; refine ⟨by cases piaPort (addr - r.lo).toNat <;> rfl, fun p => ?_⟩
        cases piaPort (addr - r.lo).toNat <;> cases p <;> first | exact .inl rfl | exact .inr rfl

theorem effect_memWrite8 {s t : State} {addr v u} (h : memWrite8 addr v s = .ok u t) : Effect s t [addr] [] := by
  refine ⟨fun a ha => memWrite8_peek h a (by simpa using ha), ?_, ?_, ?_, fun w => ?_, fun w => ?_⟩
  iterate 3 rw [memWrite8_frame h]
  all_goals
    rcases memWrite8_cases h with ⟨_, rfl⟩ | ⟨r, hr, ho, _⟩
    · first | exact ⟨rfl, rfl, rfl⟩ | exact ⟨rfl, fun _ => .inl rfl⟩
    · exact absurd ⟨r, hr, ho⟩ (w addr (by simp))

theorem effect_memRead16 {s t : State} {addr v} (h : memRead16 addr s = .ok v t) : Effect s t [] [addr, addr + 1] := by
  obtain ⟨_, s1, h1, h⟩ := bind_eq_ok.1 h
  obtain ⟨_, s2, h2, h⟩ := bind_eq_ok.1 h
  obtain ⟨_, rfl⟩ := Res.ok.inj h
  exact (effect_memRead8 h1).trans (effect_memRead8 h2)

theorem effect_memWrite16 {s t : State} {addr v u} (h : memWrite16 addr v s = .ok u t) : Effect s t [addr, addr + 1] [] := by
  obtain ⟨_, s1, h1, h2⟩ := bind_eq_ok.1 h
  exact (effect_memWrite8 h1).trans (effect_memWrite8 h2)

theorem effect_push8 {s t : State} {v u} (h : push8 v s = .ok u t) : Effect s t [s.sp] [] := by
  obtain ⟨s1, h1, rfl⟩ := push8_cases h
  exact (effect_memWrite8 h1).regs rfl rfl rfl rfl rfl rfl rfl

theorem effect_push16 {s t : State} {v u} (h : push16 v s = .ok u t) : Effect s t [s.sp, s.sp - 1] [] := by
  obtain ⟨s1, h1, h2⟩ := push16_cases h
  have : s1.sp = s.sp - 1 := by rw [push8_frame h1]
  exact (effect_push8 h1).trans (this ▸ effect_push8 h2)

theorem effect_pull8 {s t : State} {v} (h : pull8 s = .ok v t) : Effect s t [] [s.sp + 1] :=
  ((Effect.refl s).regs (u := s.setSp (s.sp + 1)) rfl rfl rfl rfl rfl rfl rfl).trans (effect_memRead8 h)

theorem effect_pull16 {s t : State} {v} (h : pull16 s = .ok v t) : Effect s t [] [s.sp + 1, s.sp + 2] := by
  obtain ⟨_, s1, h1, h⟩ := bind_eq_ok.1 h
  obtain ⟨_, s2, h2, h⟩ := bind_eq_ok.1 h
  obtain ⟨_, rfl⟩ := Res.ok.inj h
  have : s1.sp + 1 = s.sp + 2 := by rw [pull8_frame h1]; exact add_add_eq _ rfl
  exact (effect_pull8 h1).trans (this ▸ effect_pull8 h2)

theorem effect_stackAll {s t : State} {u} (h : stackAll s = .ok u t) : Effect s t [s.sp, s.sp - 1, s.sp - 2, s.sp - 3, s.sp - 4, s.sp - 5, s.sp - 6] [] := by
  obtain ⟨s1, s2, s3, s4, h1, h2, h3, h4, h5⟩ := stackAll_cases h
  have e1 : s1.sp = s.sp - 2 := by rw [push16_frame h1]
  have e2 : s2.sp = s.sp - 4 := by rw [push16_frame h2, ← sub_sub_eq s.sp (by decide : (2 : Word) + 2 = 4), ← e1]
  have e3 : s3.sp = s.sp - 5 := by rw [push8_frame h3, ← sub_sub_eq s.sp (by decide : (4 : Word) + 1 = 5), ← e2]
  have e4 : s4.sp = s.sp - 6 := by rw [push8_frame h4, ← sub_sub_eq s.sp (by decide : (5 : Word) + 1 = 6), ← e3]
  have e1' : s1.sp - 1 = s.sp - 3 := by rw [e1]; exact sub_sub_eq _ (by decide)
  have E := ((((effect_push16 h1).trans (effect_push16 h2)).trans (effect_push8 h3)).trans (effect_push8 h4)).trans (effect_push8 h5)
  rw [e1', e1, e2, e3, e4] at E
  exact E

theorem effect_operand8 {s t : State} {src m} (h : operand8 src s = .ok m t) : Effect s t [] (src8Reads src s) := by
  cases src with
  | imm v => obtain ⟨_, rfl⟩ := Res.ok.inj h; exact Effect.refl _
  | mem a => exact effect_memRead8 h

theorem effect_operand16 {s t : State} {src m} (h : operand16 src s = .ok m t) : Effect s t [] (src16Reads src s) := by
  cases src with
  | imm v => obtain ⟨_, rfl⟩ := Res.ok.inj h; exact Effect.refl _
  | mem a => exact effect_memRead16 h

theorem effect_accOperand {f r src} {s t : State} (h : (accOperand f r src s).outcome = .next t) : Effect s t [] (src8Reads src s) := by
  obtain ⟨m, s1, h1, rfl⟩ := accOperand_cases (outcome_eq_next.1 h)
  cases r <;> exact (effect_operand8 h1).regs rfl rfl rfl rfl rfl rfl rfl

theorem effect_accTest {f r src} {s t : State} (h : (accTest f r src s).outcome = .next t) : Effect s t [] (src8Reads src s) := by
  obtain ⟨m, s1, h1, rfl⟩ := accTest_cases (outcome_eq_next.1 h)
  exact (effect_operand8 h1).regs rfl rfl rfl rfl rfl rfl rfl

theorem effect_memModify {f ea} {s t : State} (h : (memModify f ea s).outcome = .next t) : Effect s t [effAddr ea.toMem s] [effAddr ea.toMem s] := by
  obtain ⟨v, s1, s2, h1, h2, rfl⟩ := memModify_cases (outcome_eq_next.1 h)
  exact ((effect_memRead8 h1).trans (effect_memWrite8 h2)).regs rfl rfl rfl rfl rfl rfl rfl

theorem effect_accModify {f r} {s t : State} (h : (accModify f r s).outcome = .next t) : Effect s t [] [] := by
  obtain ⟨_, rfl⟩ := Res.ok.inj (outcome_eq_next.1 h)
  cases r <;> exact (Effect.refl s).regs rfl rfl rfl rfl rfl rfl rfl

theorem effect_branch {c rel} {s t : State} (h : (branch c rel s).outcome = .next t) : Effect s t [] [] := by
  rw [branch_eq] at h
  obtain rfl := (Res.ok.inj (outcome_eq_next.1 h)).2
  split <;> exact (Effect.refl s).regs rfl rfl rfl rfl rfl rfl rfl

theorem effect_call {tg} {s t : State} (h : (call tg s).outcome = .next t) : Effect s t [s.sp, s.sp - 1] [] := by
  obtain ⟨s1, h1, rfl⟩ := call_cases (outcome_eq_next.1 h)
  exact (effect_push16 h1).regs rfl rfl rfl rfl rfl rfl rfl

theorem effect_vectorTo {vec} {s t : State} {u} (h : vectorTo vec s = .ok u t) : Effect s t [] [vec, vec + 1] := by
  obtain ⟨tg, s1, h1, rfl, -⟩ := vectorTo_cases h
  exact (((Effect.refl s).regs (u := s.setCc (s.cc.setI true)) rfl rfl rfl rfl rfl rfl rfl).trans (effect_memRead16 h1)).regs rfl rfl rfl rfl rfl rfl rfl

theorem effect_returnFromInterrupt {s t : State} {u} (h : returnFromInterrupt s = .ok u t) : Effect s t [] [s.sp + 1, s.sp + 2, s.sp + 3, s.sp + 4, s.sp + 5, s.sp + 6, s.sp + 7] := by
  obtain ⟨c, s1, h1, h⟩ := bind_eq_ok.1 h
  obtain ⟨b, s2, h2, h⟩ := bind_eq_ok.1 h
  obtain ⟨a, s3, h3, h⟩ := bind_eq_ok.1 h
  obtain ⟨x, s4, h4, h⟩ := bind_eq_ok.1 h
  obtain ⟨p, s5, h5, h⟩ := bind_eq_ok.1 h
  obtain rfl := (Res.ok.inj h).2
  have e1 : s1.sp = s.sp + 1 := by rw [pull8_frame h1]
  have e2 : s2.sp = s.sp + 2 := by rw [pull8_frame h2]; show s1.sp + 1 = _; rw [e1]; exact add_add_eq _ rfl
  have e3 : s3.sp = s.sp + 3 := by rw [pull8_frame h3]; show s2.sp + 1 = _; rw [e2]; exact add_add_eq _ rfl
  have p16 : ∀ {u w : State} {v}, pull16 u = .ok v w → w.sp = u.sp + 2 := by
    intro u w v h
    obtain ⟨_, u1, k1, h⟩ := bind_eq_ok.1 h
    obtain ⟨_, u2, k2, h⟩ := bind_eq_ok.1 h
    obtain ⟨_, rfl⟩ := Res.ok.inj h
    rw [pull8_frame k2, pull8_frame k1]; exact add_add_eq _ rfl
  have e4 : s4.sp = s.sp + 5 := by rw [p16 h4]; show s3.sp + 2 = _; rw [e3]; exact add_add_eq _ rfl
  have E1 := (effect_pull8 h1).regs (u := s1.setCc (CC.ofByte c)) rfl rfl rfl rfl rfl rfl rfl
  have E2 := (E1.trans (effect_pull8 h2)).regs (u := s2.setB b) rfl rfl rfl rfl rfl rfl rfl
  have E3 := (E2.trans (effect_pull8 h3)).regs (u := s3.setA a) rfl rfl rfl rfl rfl rfl rfl
  have E4 := (E3.trans (effect_pull16 h4)).regs (u := s4.setX x) rfl rfl rfl rfl rfl rfl rfl
  have E5 := (E4.trans (effect_pull16 h5)).regs (u := s5.setPc p) rfl rfl rfl rfl rfl rfl rfl
  simp only [setCc_sp, setB_sp, setA_sp, setX_sp, e1, e2, e3, e4] at E5
  rw [add_add_eq s.sp (rfl : (1:Word) + 1 = 2), add_add_eq s.sp (rfl : (2:Word) + 1 = 3), add_add_eq s.sp (rfl : (3:Word) + 1 = 4), add_add_eq s.sp (rfl : (3:Word) + 2 = 5), add_add_eq s.sp (rfl : (5:Word) + 1 = 6), add_add_eq s.sp (rfl : (5:Word) + 2 = 7)] at E5
  exact E5

end Sys2Proof.Laws
end

