-- ==== Sys2Proof/Laws/Flags.lean ====
section
/-! SUPPORT. The arithmetic of the flag computations: sums, differences, carries, and the spellings of N and Z. -/

namespace Sys2Proof.Laws

open Sys2Proof.Machine Sys2Proof.Safety

/-- The sum of R100 as a sum of bytes. -/
theorem ofNat_sum (a b : Byte) (c : Bool) : BitVec.ofNat 8 (a.toNat + b.toNat + c.toNat) = a + b + (BitVec.ofBool c).setWidth 8 := by
  apply BitVec.eq_of_toNat_eq
  cases c <;> simp [BitVec.toNat_add]

/-- The carry formula of R100 is the carry of binary addition. -/
theorem carryOut_eq_carry (a b : Byte) (c : Bool) (k : Nat) (hk : k < 8) :
    carryOut a b (BitVec.ofNat 8 (a.toNat + b.toNat + c.toNat)) k = BitVec.carry (k + 1) a b c := by
  unfold carryOut
  rw [ofNat_sum, BitVec.getLsbD_add_add_bool hk, BitVec.carry_succ]
  cases a.getLsbD k <;> cases b.getLsbD k <;> cases BitVec.carry k a b c <;> rfl

/-- The difference of R101 as a sum with the complement. -/
theorem ofInt_difference (a b : Byte) (bin : Bool) :
    BitVec.ofInt 8 ((a.toNat : Int) - b.toNat - bin.toNat) = BitVec.ofNat 8 (a.toNat + (~~~b).toNat + (!bin).toNat) := by
  apply BitVec.eq_of_toNat_eq
  have hb := b.isLt
  rw [BitVec.toNat_ofNat, BitVec.toNat_ofInt, BitVec.toNat_not]
  cases bin <;> simp <;> omega

/-- A byte is zero when its number is. -/
theorem decide_byte_zero (r : Byte) : decide (r = 0) = decide (r.toNat = 0) :=
  decide_eq_decide.2 ⟨fun h => by rw [h]; rfl, fun h => BitVec.eq_of_toNat_eq h⟩

/-- A word is zero when its number is. -/
theorem decide_word_zero (r : Word) : decide (r = 0) = decide (r.toNat = 0) :=
  decide_eq_decide.2 ⟨fun h => by rw [h]; rfl, fun h => BitVec.eq_of_toNat_eq h⟩

theorem byte_add_zero (x : Byte) : x + 0 = x := by simp

theorem byte_sub_zero (x : Byte) : x - 0 = x := by simp

/-- The result of `add8` as a sum of bytes. -/
theorem add8_value (a b : Byte) (c : Bool) (cc : CC) : (add8 a b c cc).value = a + b + (if c then 1 else 0) := by
  show BitVec.ofNat 8 (a.toNat + b.toNat + c.toNat) = _
  rw [ofNat_sum]; cases c <;> rfl

/-- The result of `sub8` as a difference of bytes. -/
theorem sub8_value (a b : Byte) (c : Bool) (cc : CC) : (sub8 a b c cc).value = a - b - (if c then 1 else 0) := by
  apply BitVec.eq_of_toNat_eq
  show (BitVec.ofInt 8 ((a.toNat : Int) - b.toNat - c.toNat)).toNat = _
  have := a.isLt; have := b.isLt
  rw [BitVec.toNat_ofInt, BitVec.toNat_sub, BitVec.toNat_sub]
  cases c <;> simp <;> omega

/-- The two spellings of the flags of a load (R26). -/
theorem logic8_eq (v : Byte) (cc : CC) : cc.logic8 v = nzClearV v cc := by
  simp only [CC.logic8, CC.setV, CC.setNZ8, nzClearV, decide_byte_zero]; rfl

/-- The same for a word. -/
theorem logic16_eq (v : Word) (cc : CC) : cc.logic16 v = nzClearV16 v cc := by
  simp only [CC.logic16, CC.setV, CC.setNZ16, nzClearV16, decide_word_zero]; rfl

/-- The two spellings of the flags of a shift (R130). -/
theorem shiftResult_cc (r : Byte) (o : Bool) (cc : CC) : (shiftResult r o cc).cc = shiftFlags r o cc := by
  simp only [shiftResult, CC.setC, CC.setV, CC.setNZ8, shiftFlags, decide_byte_zero]; rfl

end Sys2Proof.Laws
end

