-- ==== Sys2Proof/Laws/Interrupts.lean ====
section
/-! SUPPORT. Stacking, vectoring and returning as plain sequences of bus accesses, wherever those fall. -/

namespace Sys2Proof.Laws

open Sys2Proof.Machine Sys2Proof.Safety

/-! The bus does not see the registers: an access made with other registers answers the same. -/

/-- A read's answer carried to a state with other registers. -/
def readOnto {α : Type} (u : State) (r : Res α) : Res α :=
  match r with
  | .ok v t => .ok v { u with portA := t.portA, portB := t.portB }
  | .fault e => .fault e

@[simp] theorem readOnto_ok {α : Type} (u : State) (v : α) (t : State) :
    readOnto u (.ok v t) = .ok v { u with portA := t.portA, portB := t.portB } := rfl

@[simp] theorem readOnto_fault {α : Type} (u : State) (e : Fault) : readOnto u (.fault e : Res α) = .fault e := rfl

/-- Two states the bus reads alike: they differ in registers only. -/
structure SameBus (s u : State) : Prop where
  config : u.config = s.config
  mem : u.mem = s.mem
  portA : u.portA = s.portA
  portB : u.portB = s.portB

theorem memRead8_onto {s u : State} (h : SameBus s u) (addr : Word) : memRead8 addr u = readOnto u (memRead8 addr s) := by
  have hp : ∀ p, u.port p = s.port p := by intro p; cases p; exact h.portA; exact h.portB
  have hs : u = { u with portA := s.portA, portB := s.portB } := by rw [← h.portA, ← h.portB]
  unfold memRead8
  rw [h.config]
  cases resolve s.config addr with
  | none => rfl
  | some r =>
    dsimp only
    split
    · rw [h.mem]; exact congrArg _ hs
    · exact congrArg _ hs
    · unfold piaRead
      dsimp only
      rw [hp]
      split
      · exact congrArg _ hs
      · split
        · cases piaPort (addr - r.lo).toNat
          · exact congrArg _ (show { u with portA := _ } = { u with portA := _, portB := s.portB } by rw [← h.portB]; rfl)
          · exact congrArg _ (show { u with portB := _ } = { u with portA := s.portA, portB := _ } by rw [← h.portA]; rfl)
        · exact congrArg _ hs

/-- What a read leaves, in a state with other registers, is again alike. -/
theorem SameBus.onto {s u t : State} (h : SameBus s u) (hc : t.config = s.config) (hm : t.mem = s.mem) :
    SameBus t { u with portA := t.portA, portB := t.portB } := ⟨h.config.trans hc.symm, h.mem.trans hm.symm, rfl, rfl⟩

theorem memRead16_onto {s u : State} (h : SameBus s u) (addr : Word) : memRead16 addr u = readOnto u (memRead16 addr s) := by
  unfold memRead16
  rw [memRead8_onto h]
  cases h1 : memRead8 addr s with
  | fault e => rfl
  | ok hi s1 =>
    have f := memRead8_frame h1
    rw [readOnto_ok, bind_ok, bind_ok, memRead8_onto (h.onto (by rw [f]) (by rw [f]))]
    cases memRead8 (addr + 1) s1 with
    | fault e => rfl
    | ok lo s2 => rfl

/-- A write of the PIA's registers is the same whatever SP is. -/
theorem piaWrite_setSp (idx : Nat) (v : Byte) (s : State) (sp : Word) : piaWrite idx v (s.setSp sp) = (piaWrite idx v s).setSp sp := by
  have hc : ∀ p, writeControl p v (s.setSp sp) = (writeControl p v s).setSp sp := by
    intro p
    unfold writeControl
    cases p
    · rfl
    · dsimp only
      split
      · next h => rw [if_pos (show PortId.b = .b ∧ (s.port .b).controlLine2 = false ∧ (s.setPort .b (portControl (s.port .b) v)).portB.controlLine2 = true from h)]; rfl
      · next h => rw [if_neg (show ¬ (PortId.b = .b ∧ (s.port .b).controlLine2 = false ∧ (s.setPort .b (portControl (s.port .b) v)).portB.controlLine2 = true) from h)]; rfl
  have hp : ∀ p q, (s.setSp sp).setPort p q = (s.setPort p q).setSp sp := by intro p q; cases p <;> rfl
  unfold piaWrite
  dsimp only
  rw [show ∀ p, (s.setSp sp).port p = s.port p from fun p => by cases p <;> rfl, hc, hp, hp]
  split
  · rfl
  · split <;> rfl

/-- Writing is the same whatever SP is. -/
theorem memWrite8_setSp (addr : Word) (v : Byte) (s : State) (sp : Word) :
    memWrite8 addr v (s.setSp sp) = (memWrite8 addr v s).bind fun _ t => .ok () (t.setSp sp) := by
  unfold memWrite8
  rw [setSp_config]
  cases resolve s.config addr with
  | none => rfl
  | some r =>
    dsimp only
    split
    · split
      · rfl
      · rfl
      · rw [bind_ok]
        exact congrArg _ (piaWrite_setSp _ _ _ _)
    · rfl

theorem busWrites_setSp (l : List (Word × Byte)) (s : State) (sp : Word) :
    busWrites l (s.setSp sp) = (busWrites l s).bind fun _ t => .ok () (t.setSp sp) := by
  induction l generalizing s with
  | nil => rfl
  | cons c rest ih =>
    rw [busWrites, memWrite8_setSp, busWrites]
    cases memWrite8 c.1 c.2 s with
    | fault e => rfl
    | ok v t => exact ih t

/-- Pushes one after another. -/
def pushes (l : List Byte) (s : State) : Res Unit :=
  match l with
  | [] => .ok () s
  | v :: rest => (push8 v s).bind fun _ t => pushes rest t

/-- The writes of a list of pushes: from SP down. -/
def writesDown (sp : Word) (l : List Byte) : List (Word × Byte) :=
  match l with
  | [] => []
  | v :: rest => (sp, v) :: writesDown (sp - 1) rest

/-- Pushes are bus writes from SP down, and SP goes down by their number (R40). -/
theorem pushes_eq (l : List Byte) (s : State) :
    pushes l s = (busWrites (writesDown s.sp l) s).bind fun _ t => .ok () (t.setSp (s.sp - BitVec.ofNat 16 l.length)) := by
  induction l generalizing s with
  | nil => show Res.ok () s = .ok () (s.setSp (s.sp - BitVec.ofNat 16 0)); rw [show s.sp - BitVec.ofNat 16 0 = s.sp from BitVec.sub_zero s.sp]; rfl
  | cons v rest ih =>
    rw [pushes, push8, writesDown, busWrites]
    cases h : memWrite8 s.sp v s with
    | fault e => rfl
    | ok u t =>
      have e : t.sp = s.sp := by rw [memWrite8_frame h]
      have n : s.sp - 1 - BitVec.ofNat 16 rest.length = s.sp - BitVec.ofNat 16 (rest.length + 1) :=
        sub_sub_eq s.sp (by rw [BitVec.ofNat_add, BitVec.add_comm]; rfl)
      rw [bind_ok, bind_ok, bind_ok, ih, setSp_sp, e, busWrites_setSp, n]
      cases busWrites (writesDown (s.sp - 1) rest) t with
      | fault e => rfl
      | ok u' t' => rfl

/-- The frame, written down from SP (R224). -/
theorem frameWrites_eq (s : State) :
    frameWrites s = writesDown s.sp [byteLo s.pc, byteHi s.pc, byteLo s.x, byteHi s.x, s.a, s.b, s.cc.toByte] := by
  simp only [frameWrites, frameBytes, writesDown, List.reverse_cons, List.reverse_nil, List.nil_append, List.cons_append, BitVec.sub_sub]
  rfl

/-- `StackAll` is the seven writes of the frame, and SP goes down by seven (R224). -/
theorem stackAll_eq (s : State) :
    stackAll s = (busWrites (frameWrites s) s).bind fun _ t => .ok () (t.setSp (s.sp - 7)) := by
  have hp := pushes_eq [byteLo s.pc, byteHi s.pc, byteLo s.x, byteHi s.x, s.a, s.b, s.cc.toByte] s
  rw [← frameWrites_eq] at hp
  rw [show s.sp - 7 = s.sp - BitVec.ofNat 16 7 from rfl]
  refine Eq.trans ?_ hp
  simp only [stackAll, push16, pushes]
  cases h1 : push8 (byteLo s.pc) s with
  | fault e => rfl
  | ok _ s1 =>
  simp only [bind_ok]
  cases h2 : push8 (byteHi s.pc) s1 with
  | fault e => rfl
  | ok _ s2 =>
  have f2 : s2.x = s.x ∧ s2.a = s.a ∧ s2.b = s.b ∧ s2.cc = s.cc := by
    rw [push8_frame h2, push8_frame h1]; exact ⟨rfl, rfl, rfl, rfl⟩
  simp only [bind_ok, f2.1]
  cases h3 : push8 (byteLo s.x) s2 with
  | fault e => rfl
  | ok _ s3 =>
  simp only [bind_ok]
  cases h4 : push8 (byteHi s.x) s3 with
  | fault e => rfl
  | ok _ s4 =>
  have f4 : s4.a = s.a ∧ s4.b = s.b ∧ s4.cc = s.cc := by
    rw [push8_frame h4, push8_frame h3]; exact f2.2
  simp only [bind_ok, f4.1]
  cases h5 : push8 s.a s4 with
  | fault e => rfl
  | ok _ s5 =>
  have f5 : s5.b = s.b ∧ s5.cc = s.cc := by rw [push8_frame h5]; exact f4.2
  simp only [bind_ok, f5.1]
  cases h6 : push8 s.b s5 with
  | fault e => rfl
  | ok _ s6 =>
  have f6 : s6.cc = s.cc := by rw [push8_frame h6]; exact f5.2
  simp only [bind_ok, f6]
  cases push8 s.cc.toByte s6 with
  | fault e => rfl
  | ok _ _ => rfl

/-- The writes of the frame change nothing but what they reach. -/
theorem busWrites_frame {l : List (Word × Byte)} {s t : State} {u : Unit} (h : busWrites l s = .ok u t) :
    t = { s with mem := t.mem, portA := t.portA, portB := t.portB, cvsd := t.cvsd } := by
  induction l generalizing s with
  | nil => obtain ⟨_, rfl⟩ := Res.ok.inj h; rfl
  | cons c rest ih =>
    obtain ⟨_, s1, h1, h2⟩ := bind_eq_ok.1 h
    rw [ih h2, memWrite8_frame h1]

/-- The second half of an entry, said through the vector's two reads (R225). -/
theorem vectorTo_vectorsThrough (vector : Word) (s : State) :
    vectorsThrough vector s.nmiPending s.waiWait s (vectorTo vector s).outcome := by
  have e := memRead16_onto (s := s) (u := s.setCc (s.cc.setI true)) ⟨rfl, rfl, rfl, rfl⟩ vector
  unfold vectorTo
  rw [e]
  refine ⟨fun pc u h => ?_, fun f h => ?_⟩
  · rw [h, memRead16_frame h]; rfl
  · rw [h]; rfl

/-- A whole entry, said through its nine accesses (R224, R225). -/
theorem enter_entersThrough (vector : Word) (s : State) :
    entersThrough vector s.nmiPending s.waiWait s (enter vector true s).outcome := by
  unfold enter
  rw [if_pos rfl, stackAll_eq]
  refine ⟨fun t h => ?_, fun e h => ?_⟩
  · have f := busWrites_frame h
    have v := vectorTo_vectorsThrough vector (t.setSp (s.sp - 7))
    rw [h]
    rw [show (t.setSp (s.sp - 7)).nmiPending = s.nmiPending by rw [f]; rfl, show (t.setSp (s.sp - 7)).waiWait = s.waiWait by rw [f]; rfl] at v
    exact v
  · rw [h]; rfl

/-- A state with the registers that RTI pulls, and SP, replaced. -/
def withPulled (t : State) (cc : CC) (b a : Byte) (x sp : Word) : State := { t with cc := cc, b := b, a := a, x := x, sp := sp }

theorem bind_assoc {α β γ : Type} (r : Res α) (k : α → State → Res β) (l : β → State → Res γ) :
    (r.bind k).bind l = r.bind fun v t => (k v t).bind l := by
  cases r <;> rfl

/-- A pull is a read above SP, whatever the registers are (R41). -/
theorem pull8_withPulled (t : State) (cc : CC) (b a : Byte) (x sp : Word) :
    pull8 (withPulled t cc b a x sp) = (memRead8 (sp + 1) t).bind fun v u => .ok v (withPulled u cc b a x (sp + 1)) := by
  refine (memRead8_onto (s := t) (u := withPulled t cc b a x (sp + 1)) ⟨rfl, rfl, rfl, rfl⟩ (sp + 1)).trans ?_
  cases h : memRead8 (sp + 1) t with
  | fault e => rfl
  | ok v u => rw [readOnto_ok, bind_ok, memRead8_frame h]; rfl

/-- The return from an interrupt is the seven reads above SP, and SP goes up by seven (R210). -/
theorem returnFromInterrupt_eq (s : State) :
    returnFromInterrupt s =
      (busReads [s.sp + 1, s.sp + 2, s.sp + 3, s.sp + 4, s.sp + 5, s.sp + 6, s.sp + 7] s).bind fun l t =>
        match l with
        | [c, b, a, xh, xl, ph, pl] => .ok () { t with
            cc := CC.ofByte c, b := b, a := a, x := joinBytes xh xl, pc := joinBytes ph pl, sp := s.sp + 7 }
        | _ => .ok () t := by
  have hc : ∀ t cc b a x sp v, (withPulled t cc b a x sp).setCc v = withPulled t v b a x sp := fun _ _ _ _ _ _ _ => rfl
  have hb : ∀ t cc b a x sp v, (withPulled t cc b a x sp).setB v = withPulled t cc v a x sp := fun _ _ _ _ _ _ _ => rfl
  have ha : ∀ t cc b a x sp v, (withPulled t cc b a x sp).setA v = withPulled t cc b v x sp := fun _ _ _ _ _ _ _ => rfl
  have hx : ∀ t cc b a x sp v, (withPulled t cc b a x sp).setX v = withPulled t cc b a v sp := fun _ _ _ _ _ _ _ => rfl
  have e2 : s.sp + 1 + 1 = s.sp + 2 := add_add_eq s.sp rfl
  have e3 : s.sp + 2 + 1 = s.sp + 3 := add_add_eq s.sp rfl
  have e4 : s.sp + 3 + 1 = s.sp + 4 := add_add_eq s.sp rfl
  have e5 : s.sp + 4 + 1 = s.sp + 5 := add_add_eq s.sp rfl
  have e6 : s.sp + 5 + 1 = s.sp + 6 := add_add_eq s.sp rfl
  have e7 : s.sp + 6 + 1 = s.sp + 7 := add_add_eq s.sp rfl
  show returnFromInterrupt (withPulled s s.cc s.b s.a s.x s.sp) = _
  simp only [returnFromInterrupt, pull16, busReads, pull8_withPulled, bind_assoc, bind_ok, hc, hb, ha, hx, e2, e3, e4, e5, e6, e7]
  rfl

/-! Reset. -/

/-- A read of a machine whose ports have just been reset has no effect: both control registers are 0, so no data register is
selected (R238). -/
theorem memRead8_of_reset_ports {s : State} (h : ∀ p, s.port p = Port.reset) (addr : Word) :
    (∀ v, resetByte s addr v → memRead8 addr s = .ok v s) ∧
      (resolve s.config addr = none → memRead8 addr s = .fault (.busFault addr .readUnmapped)) ∧
      (resolve s.config addr ≠ none → ∃ v, memRead8 addr s = .ok v s) := by
  have hp : ∀ idx, piaRead idx s = (0, s) := by
    intro idx
    unfold piaRead
    dsimp only
    rw [h]
    split
    · rfl
    · rw [if_neg (by decide)]; rfl
  refine ⟨?_, fun hn => ?_, fun hn => ?_⟩
  · rintro v (hv | ⟨⟨r, hr, ho⟩, rfl⟩)
    · exact memRead8_of_peek hv
    · unfold memRead8; rw [hr]; dsimp only; rw [ho]; dsimp only; rw [hp]
  · unfold memRead8; rw [hn]
  · unfold memRead8
    cases hr : resolve s.config addr with
    | none => exact absurd hr hn
    | some r =>
      dsimp only
      split
      · exact ⟨_, rfl⟩
      · exact ⟨_, rfl⟩
      · rw [hp]; exact ⟨_, rfl⟩

end Sys2Proof.Laws
end

