-- ==== Sys2Proof/Laws/PerInstr.lean ====
section
/-! SUPPORT. A statement about every instruction as syntax, one lemma per constructor. -/

namespace Sys2Proof.Laws.Encoding

/-- An encoding is the instruction's opcode byte and the operand bytes of its mode, one to three bytes in all (R60). -/
def Statement (i : Instr) : Prop :=
  (encode i).head? = some i.opcode ∧ (encode i).length = i.mode.operandBytes + 1 ∧ (encode i).length ≤ 3

theorem illegal00 : Statement .illegal00 := ⟨rfl, rfl, Nat.le_of_ble_eq_true rfl⟩
theorem nop : Statement .nop := ⟨rfl, rfl, Nat.le_of_ble_eq_true rfl⟩
theorem illegal02 : Statement .illegal02 := ⟨rfl, rfl, Nat.le_of_ble_eq_true rfl⟩
theorem illegal03 : Statement .illegal03 := ⟨rfl, rfl, Nat.le_of_ble_eq_true rfl⟩
theorem illegal04 : Statement .illegal04 := ⟨rfl, rfl, Nat.le_of_ble_eq_true rfl⟩
theorem illegal05 : Statement .illegal05 := ⟨rfl, rfl, Nat.le_of_ble_eq_true rfl⟩
theorem tap : Statement .tap := ⟨rfl, rfl, Nat.le_of_ble_eq_true rfl⟩
theorem tpa : Statement .tpa := ⟨rfl, rfl, Nat.le_of_ble_eq_true rfl⟩
theorem inx : Statement .inx := ⟨rfl, rfl, Nat.le_of_ble_eq_true rfl⟩
theorem dex : Statement .dex := ⟨rfl, rfl, Nat.le_of_ble_eq_true rfl⟩
theorem clv : Statement .clv := ⟨rfl, rfl, Nat.le_of_ble_eq_true rfl⟩
theorem sev : Statement .sev := ⟨rfl, rfl, Nat.le_of_ble_eq_true rfl⟩
theorem clc : Statement .clc := ⟨rfl, rfl, Nat.le_of_ble_eq_true rfl⟩
theorem sec : Statement .sec := ⟨rfl, rfl, Nat.le_of_ble_eq_true rfl⟩
theorem cli : Statement .cli := ⟨rfl, rfl, Nat.le_of_ble_eq_true rfl⟩
theorem sei : Statement .sei := ⟨rfl, rfl, Nat.le_of_ble_eq_true rfl⟩
theorem sba : Statement .sba := ⟨rfl, rfl, Nat.le_of_ble_eq_true rfl⟩
theorem cba : Statement .cba := ⟨rfl, rfl, Nat.le_of_ble_eq_true rfl⟩
theorem illegal12 : Statement .illegal12 := ⟨rfl, rfl, Nat.le_of_ble_eq_true rfl⟩
theorem illegal13 : Statement .illegal13 := ⟨rfl, rfl, Nat.le_of_ble_eq_true rfl⟩
theorem illegal14 : Statement .illegal14 := ⟨rfl, rfl, Nat.le_of_ble_eq_true rfl⟩
theorem illegal15 : Statement .illegal15 := ⟨rfl, rfl, Nat.le_of_ble_eq_true rfl⟩
theorem tab : Statement .tab := ⟨rfl, rfl, Nat.le_of_ble_eq_true rfl⟩
theorem tba : Statement .tba := ⟨rfl, rfl, Nat.le_of_ble_eq_true rfl⟩
theorem illegal18 : Statement .illegal18 := ⟨rfl, rfl, Nat.le_of_ble_eq_true rfl⟩
theorem daa : Statement .daa := ⟨rfl, rfl, Nat.le_of_ble_eq_true rfl⟩
theorem illegal1A : Statement .illegal1A := ⟨rfl, rfl, Nat.le_of_ble_eq_true rfl⟩
theorem aba : Statement .aba := ⟨rfl, rfl, Nat.le_of_ble_eq_true rfl⟩
theorem illegal1C : Statement .illegal1C := ⟨rfl, rfl, Nat.le_of_ble_eq_true rfl⟩
theorem illegal1D : Statement .illegal1D := ⟨rfl, rfl, Nat.le_of_ble_eq_true rfl⟩
theorem illegal1E : Statement .illegal1E := ⟨rfl, rfl, Nat.le_of_ble_eq_true rfl⟩
theorem illegal1F : Statement .illegal1F := ⟨rfl, rfl, Nat.le_of_ble_eq_true rfl⟩
theorem bra (rel : Byte) : Statement (.bra rel) := ⟨rfl, rfl, Nat.le_of_ble_eq_true rfl⟩
theorem illegal21 : Statement .illegal21 := ⟨rfl, rfl, Nat.le_of_ble_eq_true rfl⟩
theorem bhi (rel : Byte) : Statement (.bhi rel) := ⟨rfl, rfl, Nat.le_of_ble_eq_true rfl⟩
theorem bls (rel : Byte) : Statement (.bls rel) := ⟨rfl, rfl, Nat.le_of_ble_eq_true rfl⟩
theorem bcc (rel : Byte) : Statement (.bcc rel) := ⟨rfl, rfl, Nat.le_of_ble_eq_true rfl⟩
theorem bcs (rel : Byte) : Statement (.bcs rel) := ⟨rfl, rfl, Nat.le_of_ble_eq_true rfl⟩
theorem bne (rel : Byte) : Statement (.bne rel) := ⟨rfl, rfl, Nat.le_of_ble_eq_true rfl⟩
theorem beq (rel : Byte) : Statement (.beq rel) := ⟨rfl, rfl, Nat.le_of_ble_eq_true rfl⟩
theorem bvc (rel : Byte) : Statement (.bvc rel) := ⟨rfl, rfl, Nat.le_of_ble_eq_true rfl⟩
theorem bvs (rel : Byte) : Statement (.bvs rel) := ⟨rfl, rfl, Nat.le_of_ble_eq_true rfl⟩
theorem bpl (rel : Byte) : Statement (.bpl rel) := ⟨rfl, rfl, Nat.le_of_ble_eq_true rfl⟩
theorem bmi (rel : Byte) : Statement (.bmi rel) := ⟨rfl, rfl, Nat.le_of_ble_eq_true rfl⟩
theorem bge (rel : Byte) : Statement (.bge rel) := ⟨rfl, rfl, Nat.le_of_ble_eq_true rfl⟩
theorem blt (rel : Byte) : Statement (.blt rel) := ⟨rfl, rfl, Nat.le_of_ble_eq_true rfl⟩
theorem bgt (rel : Byte) : Statement (.bgt rel) := ⟨rfl, rfl, Nat.le_of_ble_eq_true rfl⟩
theorem ble (rel : Byte) : Statement (.ble rel) := ⟨rfl, rfl, Nat.le_of_ble_eq_true rfl⟩
theorem tsx : Statement .tsx := ⟨rfl, rfl, Nat.le_of_ble_eq_true rfl⟩
theorem ins : Statement .ins := ⟨rfl, rfl, Nat.le_of_ble_eq_true rfl⟩
theorem pula : Statement .pula := ⟨rfl, rfl, Nat.le_of_ble_eq_true rfl⟩
theorem pulb : Statement .pulb := ⟨rfl, rfl, Nat.le_of_ble_eq_true rfl⟩
theorem des : Statement .des := ⟨rfl, rfl, Nat.le_of_ble_eq_true rfl⟩
theorem txs : Statement .txs := ⟨rfl, rfl, Nat.le_of_ble_eq_true rfl⟩
theorem psha : Statement .psha := ⟨rfl, rfl, Nat.le_of_ble_eq_true rfl⟩
theorem pshb : Statement .pshb := ⟨rfl, rfl, Nat.le_of_ble_eq_true rfl⟩
theorem illegal38 : Statement .illegal38 := ⟨rfl, rfl, Nat.le_of_ble_eq_true rfl⟩
theorem rts : Statement .rts := ⟨rfl, rfl, Nat.le_of_ble_eq_true rfl⟩
theorem illegal3A : Statement .illegal3A := ⟨rfl, rfl, Nat.le_of_ble_eq_true rfl⟩
theorem rti : Statement .rti := ⟨rfl, rfl, Nat.le_of_ble_eq_true rfl⟩
theorem illegal3C : Statement .illegal3C := ⟨rfl, rfl, Nat.le_of_ble_eq_true rfl⟩
theorem illegal3D : Statement .illegal3D := ⟨rfl, rfl, Nat.le_of_ble_eq_true rfl⟩
theorem wai : Statement .wai := ⟨rfl, rfl, Nat.le_of_ble_eq_true rfl⟩
theorem swi : Statement .swi := ⟨rfl, rfl, Nat.le_of_ble_eq_true rfl⟩
theorem nega : Statement .nega := ⟨rfl, rfl, Nat.le_of_ble_eq_true rfl⟩
theorem illegal41 : Statement .illegal41 := ⟨rfl, rfl, Nat.le_of_ble_eq_true rfl⟩
theorem illegal42 : Statement .illegal42 := ⟨rfl, rfl, Nat.le_of_ble_eq_true rfl⟩
theorem coma : Statement .coma := ⟨rfl, rfl, Nat.le_of_ble_eq_true rfl⟩
theorem lsra : Statement .lsra := ⟨rfl, rfl, Nat.le_of_ble_eq_true rfl⟩
theorem illegal45 : Statement .illegal45 := ⟨rfl, rfl, Nat.le_of_ble_eq_true rfl⟩
theorem rora : Statement .rora := ⟨rfl, rfl, Nat.le_of_ble_eq_true rfl⟩
theorem asra : Statement .asra := ⟨rfl, rfl, Nat.le_of_ble_eq_true rfl⟩
theorem asla : Statement .asla := ⟨rfl, rfl, Nat.le_of_ble_eq_true rfl⟩
theorem rola : Statement .rola := ⟨rfl, rfl, Nat.le_of_ble_eq_true rfl⟩
theorem deca : Statement .deca := ⟨rfl, rfl, Nat.le_of_ble_eq_true rfl⟩
theorem illegal4B : Statement .illegal4B := ⟨rfl, rfl, Nat.le_of_ble_eq_true rfl⟩
theorem inca : Statement .inca := ⟨rfl, rfl, Nat.le_of_ble_eq_true rfl⟩
theorem tsta : Statement .tsta := ⟨rfl, rfl, Nat.le_of_ble_eq_true rfl⟩
theorem illegal4E : Statement .illegal4E := ⟨rfl, rfl, Nat.le_of_ble_eq_true rfl⟩
theorem clra : Statement .clra := ⟨rfl, rfl, Nat.le_of_ble_eq_true rfl⟩
theorem negb : Statement .negb := ⟨rfl, rfl, Nat.le_of_ble_eq_true rfl⟩
theorem illegal51 : Statement .illegal51 := ⟨rfl, rfl, Nat.le_of_ble_eq_true rfl⟩
theorem illegal52 : Statement .illegal52 := ⟨rfl, rfl, Nat.le_of_ble_eq_true rfl⟩
theorem comb : Statement .comb := ⟨rfl, rfl, Nat.le_of_ble_eq_true rfl⟩
theorem lsrb : Statement .lsrb := ⟨rfl, rfl, Nat.le_of_ble_eq_true rfl⟩
theorem illegal55 : Statement .illegal55 := ⟨rfl, rfl, Nat.le_of_ble_eq_true rfl⟩
theorem rorb : Statement .rorb := ⟨rfl, rfl, Nat.le_of_ble_eq_true rfl⟩
theorem asrb : Statement .asrb := ⟨rfl, rfl, Nat.le_of_ble_eq_true rfl⟩
theorem aslb : Statement .aslb := ⟨rfl, rfl, Nat.le_of_ble_eq_true rfl⟩
theorem rolb : Statement .rolb := ⟨rfl, rfl, Nat.le_of_ble_eq_true rfl⟩
theorem decb : Statement .decb := ⟨rfl, rfl, Nat.le_of_ble_eq_true rfl⟩
theorem illegal5B : Statement .illegal5B := ⟨rfl, rfl, Nat.le_of_ble_eq_true rfl⟩
theorem incb : Statement .incb := ⟨rfl, rfl, Nat.le_of_ble_eq_true rfl⟩
theorem tstb : Statement .tstb := ⟨rfl, rfl, Nat.le_of_ble_eq_true rfl⟩
theorem illegal5E : Statement .illegal5E := ⟨rfl, rfl, Nat.le_of_ble_eq_true rfl⟩
theorem clrb : Statement .clrb := ⟨rfl, rfl, Nat.le_of_ble_eq_true rfl⟩
theorem neg : (m : IdxExt) → Statement (.neg m)
  | .idx _ => ⟨rfl, rfl, Nat.le_of_ble_eq_true rfl⟩
  | .ext _ => ⟨rfl, rfl, Nat.le_of_ble_eq_true rfl⟩
theorem illegal61 : Statement .illegal61 := ⟨rfl, rfl, Nat.le_of_ble_eq_true rfl⟩
theorem illegal62 : Statement .illegal62 := ⟨rfl, rfl, Nat.le_of_ble_eq_true rfl⟩
theorem com : (m : IdxExt) → Statement (.com m)
  | .idx _ => ⟨rfl, rfl, Nat.le_of_ble_eq_true rfl⟩
  | .ext _ => ⟨rfl, rfl, Nat.le_of_ble_eq_true rfl⟩
theorem lsr : (m : IdxExt) → Statement (.lsr m)
  | .idx _ => ⟨rfl, rfl, Nat.le_of_ble_eq_true rfl⟩
  | .ext _ => ⟨rfl, rfl, Nat.le_of_ble_eq_true rfl⟩
theorem illegal65 : Statement .illegal65 := ⟨rfl, rfl, Nat.le_of_ble_eq_true rfl⟩
theorem ror : (m : IdxExt) → Statement (.ror m)
  | .idx _ => ⟨rfl, rfl, Nat.le_of_ble_eq_true rfl⟩
  | .ext _ => ⟨rfl, rfl, Nat.le_of_ble_eq_true rfl⟩
theorem asr : (m : IdxExt) → Statement (.asr m)
  | .idx _ => ⟨rfl, rfl, Nat.le_of_ble_eq_true rfl⟩
  | .ext _ => ⟨rfl, rfl, Nat.le_of_ble_eq_true rfl⟩
theorem asl : (m : IdxExt) → Statement (.asl m)
  | .idx _ => ⟨rfl, rfl, Nat.le_of_ble_eq_true rfl⟩
  | .ext _ => ⟨rfl, rfl, Nat.le_of_ble_eq_true rfl⟩
theorem rol : (m : IdxExt) → Statement (.rol m)
  | .idx _ => ⟨rfl, rfl, Nat.le_of_ble_eq_true rfl⟩
  | .ext _ => ⟨rfl, rfl, Nat.le_of_ble_eq_true rfl⟩
theorem dec : (m : IdxExt) → Statement (.dec m)
  | .idx _ => ⟨rfl, rfl, Nat.le_of_ble_eq_true rfl⟩
  | .ext _ => ⟨rfl, rfl, Nat.le_of_ble_eq_true rfl⟩
theorem illegal6B : Statement .illegal6B := ⟨rfl, rfl, Nat.le_of_ble_eq_true rfl⟩
theorem inc : (m : IdxExt) → Statement (.inc m)
  | .idx _ => ⟨rfl, rfl, Nat.le_of_ble_eq_true rfl⟩
  | .ext _ => ⟨rfl, rfl, Nat.le_of_ble_eq_true rfl⟩
theorem tst : (m : IdxExt) → Statement (.tst m)
  | .idx _ => ⟨rfl, rfl, Nat.le_of_ble_eq_true rfl⟩
  | .ext _ => ⟨rfl, rfl, Nat.le_of_ble_eq_true rfl⟩
theorem jmp : (m : IdxExt) → Statement (.jmp m)
  | .idx _ => ⟨rfl, rfl, Nat.le_of_ble_eq_true rfl⟩
  | .ext _ => ⟨rfl, rfl, Nat.le_of_ble_eq_true rfl⟩
theorem clr : (m : IdxExt) → Statement (.clr m)
  | .idx _ => ⟨rfl, rfl, Nat.le_of_ble_eq_true rfl⟩
  | .ext _ => ⟨rfl, rfl, Nat.le_of_ble_eq_true rfl⟩
theorem illegal71 : Statement .illegal71 := ⟨rfl, rfl, Nat.le_of_ble_eq_true rfl⟩
theorem illegal72 : Statement .illegal72 := ⟨rfl, rfl, Nat.le_of_ble_eq_true rfl⟩
theorem illegal75 : Statement .illegal75 := ⟨rfl, rfl, Nat.le_of_ble_eq_true rfl⟩
theorem illegal7B : Statement .illegal7B := ⟨rfl, rfl, Nat.le_of_ble_eq_true rfl⟩
theorem suba : (m : Src8) → Statement (.suba m)
  | .imm _ => ⟨rfl, rfl, Nat.le_of_ble_eq_true rfl⟩
  | .mem (.dir _) => ⟨rfl, rfl, Nat.le_of_ble_eq_true rfl⟩
  | .mem (.idx _) => ⟨rfl, rfl, Nat.le_of_ble_eq_true rfl⟩
  | .mem (.ext _) => ⟨rfl, rfl, Nat.le_of_ble_eq_true rfl⟩
theorem cmpa : (m : Src8) → Statement (.cmpa m)
  | .imm _ => ⟨rfl, rfl, Nat.le_of_ble_eq_true rfl⟩
  | .mem (.dir _) => ⟨rfl, rfl, Nat.le_of_ble_eq_true rfl⟩
  | .mem (.idx _) => ⟨rfl, rfl, Nat.le_of_ble_eq_true rfl⟩
  | .mem (.ext _) => ⟨rfl, rfl, Nat.le_of_ble_eq_true rfl⟩
theorem sbca : (m : Src8) → Statement (.sbca m)
  | .imm _ => ⟨rfl, rfl, Nat.le_of_ble_eq_true rfl⟩
  | .mem (.dir _) => ⟨rfl, rfl, Nat.le_of_ble_eq_true rfl⟩
  | .mem (.idx _) => ⟨rfl, rfl, Nat.le_of_ble_eq_true rfl⟩
  | .mem (.ext _) => ⟨rfl, rfl, Nat.le_of_ble_eq_true rfl⟩
theorem illegal83 : Statement .illegal83 := ⟨rfl, rfl, Nat.le_of_ble_eq_true rfl⟩
theorem anda : (m : Src8) → Statement (.anda m)
  | .imm _ => ⟨rfl, rfl, Nat.le_of_ble_eq_true rfl⟩
  | .mem (.dir _) => ⟨rfl, rfl, Nat.le_of_ble_eq_true rfl⟩
  | .mem (.idx _) => ⟨rfl, rfl, Nat.le_of_ble_eq_true rfl⟩
  | .mem (.ext _) => ⟨rfl, rfl, Nat.le_of_ble_eq_true rfl⟩
theorem bita : (m : Src8) → Statement (.bita m)
  | .imm _ => ⟨rfl, rfl, Nat.le_of_ble_eq_true rfl⟩
  | .mem (.dir _) => ⟨rfl, rfl, Nat.le_of_ble_eq_true rfl⟩
  | .mem (.idx _) => ⟨rfl, rfl, Nat.le_of_ble_eq_true rfl⟩
  | .mem (.ext _) => ⟨rfl, rfl, Nat.le_of_ble_eq_true rfl⟩
theorem ldaa : (m : Src8) → Statement (.ldaa m)
  | .imm _ => ⟨rfl, rfl, Nat.le_of_ble_eq_true rfl⟩
  | .mem (.dir _) => ⟨rfl, rfl, Nat.le_of_ble_eq_true rfl⟩
  | .mem (.idx _) => ⟨rfl, rfl, Nat.le_of_ble_eq_true rfl⟩
  | .mem (.ext _) => ⟨rfl, rfl, Nat.le_of_ble_eq_true rfl⟩
theorem illegal87 : Statement .illegal87 := ⟨rfl, rfl, Nat.le_of_ble_eq_true rfl⟩
theorem eora : (m : Src8) → Statement (.eora m)
  | .imm _ => ⟨rfl, rfl, Nat.le_of_ble_eq_true rfl⟩
  | .mem (.dir _) => ⟨rfl, rfl, Nat.le_of_ble_eq_true rfl⟩
  | .mem (.idx _) => ⟨rfl, rfl, Nat.le_of_ble_eq_true rfl⟩
  | .mem (.ext _) => ⟨rfl, rfl, Nat.le_of_ble_eq_true rfl⟩
theorem adca : (m : Src8) → Statement (.adca m)
  | .imm _ => ⟨rfl, rfl, Nat.le_of_ble_eq_true rfl⟩
  | .mem (.dir _) => ⟨rfl, rfl, Nat.le_of_ble_eq_true rfl⟩
  | .mem (.idx _) => ⟨rfl, rfl, Nat.le_of_ble_eq_true rfl⟩
  | .mem (.ext _) => ⟨rfl, rfl, Nat.le_of_ble_eq_true rfl⟩
theorem oraa : (m : Src8) → Statement (.oraa m)
  | .imm _ => ⟨rfl, rfl, Nat.le_of_ble_eq_true rfl⟩
  | .mem (.dir _) => ⟨rfl, rfl, Nat.le_of_ble_eq_true rfl⟩
  | .mem (.idx _) => ⟨rfl, rfl, Nat.le_of_ble_eq_true rfl⟩
  | .mem (.ext _) => ⟨rfl, rfl, Nat.le_of_ble_eq_true rfl⟩
theorem adda : (m : Src8) → Statement (.adda m)
  | .imm _ => ⟨rfl, rfl, Nat.le_of_ble_eq_true rfl⟩
  | .mem (.dir _) => ⟨rfl, rfl, Nat.le_of_ble_eq_true rfl⟩
  | .mem (.idx _) => ⟨rfl, rfl, Nat.le_of_ble_eq_true rfl⟩
  | .mem (.ext _) => ⟨rfl, rfl, Nat.le_of_ble_eq_true rfl⟩
theorem cpx : (m : Src16) → Statement (.cpx m)
  | .imm _ => ⟨rfl, rfl, Nat.le_of_ble_eq_true rfl⟩
  | .mem (.dir _) => ⟨rfl, rfl, Nat.le_of_ble_eq_true rfl⟩
  | .mem (.idx _) => ⟨rfl, rfl, Nat.le_of_ble_eq_true rfl⟩
  | .mem (.ext _) => ⟨rfl, rfl, Nat.le_of_ble_eq_true rfl⟩
theorem bsr (rel : Byte) : Statement (.bsr rel) := ⟨rfl, rfl, Nat.le_of_ble_eq_true rfl⟩
theorem lds : (m : Src16) → Statement (.lds m)
  | .imm _ => ⟨rfl, rfl, Nat.le_of_ble_eq_true rfl⟩
  | .mem (.dir _) => ⟨rfl, rfl, Nat.le_of_ble_eq_true rfl⟩
  | .mem (.idx _) => ⟨rfl, rfl, Nat.le_of_ble_eq_true rfl⟩
  | .mem (.ext _) => ⟨rfl, rfl, Nat.le_of_ble_eq_true rfl⟩
theorem illegal8F : Statement .illegal8F := ⟨rfl, rfl, Nat.le_of_ble_eq_true rfl⟩
theorem illegal93 : Statement .illegal93 := ⟨rfl, rfl, Nat.le_of_ble_eq_true rfl⟩
theorem staa : (m : Mem) → Statement (.staa m)
  | .dir _ => ⟨rfl, rfl, Nat.le_of_ble_eq_true rfl⟩
  | .idx _ => ⟨rfl, rfl, Nat.le_of_ble_eq_true rfl⟩
  | .ext _ => ⟨rfl, rfl, Nat.le_of_ble_eq_true rfl⟩
theorem illegal9D : Statement .illegal9D := ⟨rfl, rfl, Nat.le_of_ble_eq_true rfl⟩
theorem sts : (m : Mem) → Statement (.sts m)
  | .dir _ => ⟨rfl, rfl, Nat.le_of_ble_eq_true rfl⟩
  | .idx _ => ⟨rfl, rfl, Nat.le_of_ble_eq_true rfl⟩
  | .ext _ => ⟨rfl, rfl, Nat.le_of_ble_eq_true rfl⟩
theorem illegalA3 : Statement .illegalA3 := ⟨rfl, rfl, Nat.le_of_ble_eq_true rfl⟩
theorem jsr : (m : IdxExt) → Statement (.jsr m)
  | .idx _ => ⟨rfl, rfl, Nat.le_of_ble_eq_true rfl⟩
  | .ext _ => ⟨rfl, rfl, Nat.le_of_ble_eq_true rfl⟩
theorem illegalB3 : Statement .illegalB3 := ⟨rfl, rfl, Nat.le_of_ble_eq_true rfl⟩
theorem subb : (m : Src8) → Statement (.subb m)
  | .imm _ => ⟨rfl, rfl, Nat.le_of_ble_eq_true rfl⟩
  | .mem (.dir _) => ⟨rfl, rfl, Nat.le_of_ble_eq_true rfl⟩
  | .mem (.idx _) => ⟨rfl, rfl, Nat.le_of_ble_eq_true rfl⟩
  | .mem (.ext _) => ⟨rfl, rfl, Nat.le_of_ble_eq_true rfl⟩
theorem cmpb : (m : Src8) → Statement (.cmpb m)
  | .imm _ => ⟨rfl, rfl, Nat.le_of_ble_eq_true rfl⟩
  | .mem (.dir _) => ⟨rfl, rfl, Nat.le_of_ble_eq_true rfl⟩
  | .mem (.idx _) => ⟨rfl, rfl, Nat.le_of_ble_eq_true rfl⟩
  | .mem (.ext _) => ⟨rfl, rfl, Nat.le_of_ble_eq_true rfl⟩
theorem sbcb : (m : Src8) → Statement (.sbcb m)
  | .imm _ => ⟨rfl, rfl, Nat.le_of_ble_eq_true rfl⟩
  | .mem (.dir _) => ⟨rfl, rfl, Nat.le_of_ble_eq_true rfl⟩
  | .mem (.idx _) => ⟨rfl, rfl, Nat.le_of_ble_eq_true rfl⟩
  | .mem (.ext _) => ⟨rfl, rfl, Nat.le_of_ble_eq_true rfl⟩
theorem illegalC3 : Statement .illegalC3 := ⟨rfl, rfl, Nat.le_of_ble_eq_true rfl⟩
theorem andb : (m : Src8) → Statement (.andb m)
  | .imm _ => ⟨rfl, rfl, Nat.le_of_ble_eq_true rfl⟩
  | .mem (.dir _) => ⟨rfl, rfl, Nat.le_of_ble_eq_true rfl⟩
  | .mem (.idx _) => ⟨rfl, rfl, Nat.le_of_ble_eq_true rfl⟩
  | .mem (.ext _) => ⟨rfl, rfl, Nat.le_of_ble_eq_true rfl⟩
theorem bitb : (m : Src8) → Statement (.bitb m)
  | .imm _ => ⟨rfl, rfl, Nat.le_of_ble_eq_true rfl⟩
  | .mem (.dir _) => ⟨rfl, rfl, Nat.le_of_ble_eq_true rfl⟩
  | .mem (.idx _) => ⟨rfl, rfl, Nat.le_of_ble_eq_true rfl⟩
  | .mem (.ext _) => ⟨rfl, rfl, Nat.le_of_ble_eq_true rfl⟩
theorem ldab : (m : Src8) → Statement (.ldab m)
  | .imm _ => ⟨rfl, rfl, Nat.le_of_ble_eq_true rfl⟩
  | .mem (.dir _) => ⟨rfl, rfl, Nat.le_of_ble_eq_true rfl⟩
  | .mem (.idx _) => ⟨rfl, rfl, Nat.le_of_ble_eq_true rfl⟩
  | .mem (.ext _) => ⟨rfl, rfl, Nat.le_of_ble_eq_true rfl⟩
theorem illegalC7 : Statement .illegalC7 := ⟨rfl, rfl, Nat.le_of_ble_eq_true rfl⟩
theorem eorb : (m : Src8) → Statement (.eorb m)
  | .imm _ => ⟨rfl, rfl, Nat.le_of_ble_eq_true rfl⟩
  | .mem (.dir _) => ⟨rfl, rfl, Nat.le_of_ble_eq_true rfl⟩
  | .mem (.idx _) => ⟨rfl, rfl, Nat.le_of_ble_eq_true rfl⟩
  | .mem (.ext _) => ⟨rfl, rfl, Nat.le_of_ble_eq_true rfl⟩
theorem adcb : (m : Src8) → Statement (.adcb m)
  | .imm _ => ⟨rfl, rfl, Nat.le_of_ble_eq_true rfl⟩
  | .mem (.dir _) => ⟨rfl, rfl, Nat.le_of_ble_eq_true rfl⟩
  | .mem (.idx _) => ⟨rfl, rfl, Nat.le_of_ble_eq_true rfl⟩
  | .mem (.ext _) => ⟨rfl, rfl, Nat.le_of_ble_eq_true rfl⟩
theorem orab : (m : Src8) → Statement (.orab m)
  | .imm _ => ⟨rfl, rfl, Nat.le_of_ble_eq_true rfl⟩
  | .mem (.dir _) => ⟨rfl, rfl, Nat.le_of_ble_eq_true rfl⟩
  | .mem (.idx _) => ⟨rfl, rfl, Nat.le_of_ble_eq_true rfl⟩
  | .mem (.ext _) => ⟨rfl, rfl, Nat.le_of_ble_eq_true rfl⟩
theorem addb : (m : Src8) → Statement (.addb m)
  | .imm _ => ⟨rfl, rfl, Nat.le_of_ble_eq_true rfl⟩
  | .mem (.dir _) => ⟨rfl, rfl, Nat.le_of_ble_eq_true rfl⟩
  | .mem (.idx _) => ⟨rfl, rfl, Nat.le_of_ble_eq_true rfl⟩
  | .mem (.ext _) => ⟨rfl, rfl, Nat.le_of_ble_eq_true rfl⟩
theorem illegalCC : Statement .illegalCC := ⟨rfl, rfl, Nat.le_of_ble_eq_true rfl⟩
theorem illegalCD : Statement .illegalCD := ⟨rfl, rfl, Nat.le_of_ble_eq_true rfl⟩
theorem ldx : (m : Src16) → Statement (.ldx m)
  | .imm _ => ⟨rfl, rfl, Nat.le_of_ble_eq_true rfl⟩
  | .mem (.dir _) => ⟨rfl, rfl, Nat.le_of_ble_eq_true rfl⟩
  | .mem (.idx _) => ⟨rfl, rfl, Nat.le_of_ble_eq_true rfl⟩
  | .mem (.ext _) => ⟨rfl, rfl, Nat.le_of_ble_eq_true rfl⟩
theorem illegalCF : Statement .illegalCF := ⟨rfl, rfl, Nat.le_of_ble_eq_true rfl⟩
theorem illegalD3 : Statement .illegalD3 := ⟨rfl, rfl, Nat.le_of_ble_eq_true rfl⟩
theorem stab : (m : Mem) → Statement (.stab m)
  | .dir _ => ⟨rfl, rfl, Nat.le_of_ble_eq_true rfl⟩
  | .idx _ => ⟨rfl, rfl, Nat.le_of_ble_eq_true rfl⟩
  | .ext _ => ⟨rfl, rfl, Nat.le_of_ble_eq_true rfl⟩
theorem illegalDC : Statement .illegalDC := ⟨rfl, rfl, Nat.le_of_ble_eq_true rfl⟩
theorem illegalDD : Statement .illegalDD := ⟨rfl, rfl, Nat.le_of_ble_eq_true rfl⟩
theorem stx : (m : Mem) → Statement (.stx m)
  | .dir _ => ⟨rfl, rfl, Nat.le_of_ble_eq_true rfl⟩
  | .idx _ => ⟨rfl, rfl, Nat.le_of_ble_eq_true rfl⟩
  | .ext _ => ⟨rfl, rfl, Nat.le_of_ble_eq_true rfl⟩
theorem illegalE3 : Statement .illegalE3 := ⟨rfl, rfl, Nat.le_of_ble_eq_true rfl⟩
theorem illegalEC : Statement .illegalEC := ⟨rfl, rfl, Nat.le_of_ble_eq_true rfl⟩
theorem illegalED : Statement .illegalED := ⟨rfl, rfl, Nat.le_of_ble_eq_true rfl⟩
theorem illegalF3 : Statement .illegalF3 := ⟨rfl, rfl, Nat.le_of_ble_eq_true rfl⟩
theorem illegalFC : Statement .illegalFC := ⟨rfl, rfl, Nat.le_of_ble_eq_true rfl⟩
theorem illegalFD : Statement .illegalFD := ⟨rfl, rfl, Nat.le_of_ble_eq_true rfl⟩

end Sys2Proof.Laws.Encoding
end

