-- ==== Sys2Proof/Laws/Pia.lean ====
section
/-! SUPPORT. The PIA's control register and the decoder's clamp. -/

namespace Sys2Proof.Laws

open Sys2Proof.Machine Sys2Proof.Safety

/-- What a control-register write stores (R242). -/
theorem portControl_bit (q : Port) (v : Byte) (k : Nat) : (portControl q v).controlRegister.getLsbD k = if k < 6 then v.getLsbD k else q.controlRegister.getLsbD k := by
  show ((q.controlRegister &&& 0xC0) ||| (v &&& 0x3F)).getLsbD k = _
  simp only [BitVec.getLsbD_or, BitVec.getLsbD_and]
  by_cases hk : k < 8
  · interval_cases k <;> simp
  · rw [BitVec.getLsbD_of_ge _ _ (by omega), BitVec.getLsbD_of_ge v _ (by omega), BitVec.getLsbD_of_ge _ _ (by omega)]; simp

/-- Where a control-register write leaves C2 (R242). -/
theorem portControl_c2 (q : Port) (v : Byte) : (portControl q v).controlLine2 = if v.getLsbD 5 && v.getLsbD 4 then v.getLsbD 3 else q.controlLine2 := by
  have h := portControl_bit q v
  have h5 := h 5; have h4 := h 4; have h3 := h 3
  simp only [show 5 < 6 by omega, show 4 < 6 by omega, show 3 < 6 by omega, if_true] at h5 h4 h3
  rw [← h5, ← h4, ← h3]; rfl

/-- A control-register write changes its own port only (R242). -/
theorem writeControl_port (p : PortId) (v : Byte) (s : State) (q : PortId) :
    (writeControl p v s).port q = if q = p then portControl (s.port p) v else s.port q := by
  unfold writeControl; dsimp only; split <;> cases p <;> cases q <;> rfl

/-- The clamp of R250. -/
theorem clampUnit_eq (q : Rat) : clampUnit q = min 1 (max (-1) q) := by
  unfold clampUnit
  split
  · rw [max_eq_left (by linarith), min_eq_right (by norm_num)]
  · split
    · rw [max_eq_right (by linarith), min_eq_left (by linarith)]
    · rw [max_eq_right (by linarith), min_eq_right (by linarith)]

end Sys2Proof.Laws
end

