-- ==== Sys2Proof/Laws/Step.lean ====
section
/-! SUPPORT. What the fetch and the normal arm of a step do. -/

namespace Sys2Proof.Laws

open Sys2Proof.Machine Sys2Proof.Safety

/-- A fetch changes nothing but PC and the ports of the PIA (R62). -/
theorem fetchInstr_frame {s t : State} {i : Instr} (h : fetchInstr s = .ok i t) :
    t = { s with pc := t.pc, portA := t.portA, portB := t.portB } := by
  unfold fetchInstr at h
  obtain ⟨op, s1, h1, h⟩ := bind_eq_ok.1 h
  split at h
  · obtain ⟨_, rfl⟩ := Res.ok.inj h
    rw [fetch8_frame h1]
  · obtain ⟨b1, s2, h2, h⟩ := bind_eq_ok.1 h
    obtain ⟨_, rfl⟩ := Res.ok.inj h
    rw [fetch8_frame h2, fetch8_frame h1]
  · obtain ⟨b1, s2, h2, h⟩ := bind_eq_ok.1 h
    obtain ⟨b2, s3, h3, h⟩ := bind_eq_ok.1 h
    obtain ⟨_, rfl⟩ := Res.ok.inj h
    rw [fetch8_frame h3, fetch8_frame h2, fetch8_frame h1]

/-- The fetch of an instruction without operand bytes from RAM or ROM. -/
theorem fetchInstr_of_count_zero {s : State} {op : Byte} (p0 : peek s.pc s = some op) (e : operandCount op = 0) :
    fetchInstr s = .ok (decodeWith op 0 0) (s.setPc (s.pc + 1)) := by
  unfold fetchInstr
  rw [fetch8_of_peek p0, bind_ok]
  simp only [e]

/-- The fetch of an instruction with one operand byte. -/
theorem fetchInstr_of_count_one {s : State} {op b1 : Byte} (p0 : peek s.pc s = some op) (p1 : peek (s.pc + 1) s = some b1) (e : operandCount op = 1) :
    fetchInstr s = .ok (decodeWith op b1 0) (s.setPc (s.pc + 2)) := by
  have p1' : peek (s.setPc (s.pc + 1)).pc (s.setPc (s.pc + 1)) = some b1 := p1
  have q : (s.setPc (s.pc + 1)).setPc ((s.setPc (s.pc + 1)).pc + 1) = s.setPc (s.pc + 2) := by
    show State.setPc _ (s.pc + 1 + 1) = _
    rw [add_add_eq s.pc (rfl : (1:Word) + 1 = 2)]; rfl
  unfold fetchInstr
  rw [fetch8_of_peek p0, bind_ok]
  simp only [e]
  rw [fetch8_of_peek p1', q, bind_ok]

/-- The fetch of an instruction with two operand bytes. -/
theorem fetchInstr_of_count_two {s : State} {op b1 b2 : Byte} (p0 : peek s.pc s = some op) (p1 : peek (s.pc + 1) s = some b1) (p2 : peek (s.pc + 2) s = some b2) (e : operandCount op = 2) :
    fetchInstr s = .ok (decodeWith op b1 b2) (s.setPc (s.pc + 3)) := by
  have p1' : peek (s.setPc (s.pc + 1)).pc (s.setPc (s.pc + 1)) = some b1 := p1
  have p2' : peek (s.setPc (s.pc + 2)).pc (s.setPc (s.pc + 2)) = some b2 := p2
  have q : (s.setPc (s.pc + 1)).setPc ((s.setPc (s.pc + 1)).pc + 1) = s.setPc (s.pc + 2) := by
    show State.setPc _ (s.pc + 1 + 1) = _
    rw [add_add_eq s.pc (rfl : (1:Word) + 1 = 2)]; rfl
  have q2 : (s.setPc (s.pc + 2)).setPc ((s.setPc (s.pc + 2)).pc + 1) = s.setPc (s.pc + 3) := by
    show State.setPc _ (s.pc + 2 + 1) = _
    rw [add_add_eq s.pc (rfl : (2:Word) + 1 = 3)]; rfl
  unfold fetchInstr
  rw [fetch8_of_peek p0, bind_ok]
  simp only [e]
  rw [fetch8_of_peek p1', q, bind_ok, fetch8_of_peek p2', q2, bind_ok]

/-- With no fault, no interrupt to take and no wait, a step fetches and executes (R226). -/
theorem step_normal {s : State} (h1 : s.fault = none) (h2 : s.nmiPending = false) (h3 : irqTaken s = false) (h4 : s.waiWait = false) : step s = fetchExecute s := by
  unfold step; rw [h1]; simp [h2, h3, h4]

end Sys2Proof.Laws
end

