-- ==== Sys2Proof/Tests/Slice0.lean ====
section
/-! SUPPORT. The model's own tests, their expected values taken from the vectors of 95_test_vectors.md and the encodings of R71,
and a witness for every statement that has hypotheses. -/

namespace Sys2Proof.Tests

set_option Elab.async false

open Sys2Proof Sys2Proof.Machine Sys2Proof.Safety

/-! Helpers. -/

/-- Whether each byte sequence decodes to its instruction with nothing left. -/
def decodesAll (l : List (List Byte × Instr)) : Bool := l.all fun c => decide (decode c.1 = .instr c.2 [])

/-- A view of the state a step goes on to. -/
def view {α : Type} (f : State → α) : Host.Outcome State Fault Refusal → Option α
  | .next t => some (f t)
  | .fault _ => none
  | .refused _ => none

/-- The fault a step ends in. -/
def faultOf : Host.Outcome State Fault Refusal → Option Fault
  | .next _ => none
  | .fault f => some f
  | .refused _ => none

/-- The registers, CC as its byte. -/
def regs (t : State) : Byte × Byte × Word × Word × Word × Byte := (t.a, t.b, t.x, t.sp, t.pc, t.cc.toByte)

/-- Bytes of a program put at an address. -/
def place : List Byte → Word → State → State
  | [], _, s => s
  | v :: rest, addr, s => place rest (addr + 1) (poke addr v s)

/-- A machine in configuration TC with all four vectors, at 0xF000, with the registers given. -/
def machine (a b : Byte) (x sp : Word) (cc : Byte) : State :=
  { State.reset with
    a := a, b := b, x := x, sp := sp, cc := CC.ofByte cc
    mem := [(0x10, 0x7F), (0x20, 0x12), (0x21, 0x34), (0x30, 0x80)]
    config := { Config.tc with romImages := [[(0xFF8, 0xF1), (0xFFA, 0xF8), (0xFFC, 0xF2), (0xFFE, 0xF0)]] } }

/-- One step of a machine whose next bytes are given. -/
def runs (bytes : List Byte) (s : State) : Host.Outcome State Fault Refusal := step (place bytes s.pc s)

/-- The registers after one step. -/
def regsAfter (bytes : List Byte) (s : State) : Option (Byte × Byte × Word × Word × Word × Byte) := view regs (runs bytes s)

/-- Bytes of memory after one step. -/
def bytesAfter (bytes : List Byte) (addrs : List Word) (s : State) : Option (List (Option Byte)) :=
  view (fun t => addrs.map fun a => peek a t) (runs bytes s)

/-- The byte at one address after one step, and CC. -/
def byteAndCc (bytes : List Byte) (addr : Word) (s : State) : Option (Option Byte × Byte) :=
  view (fun t => (peek addr t, t.cc.toByte)) (runs bytes s)

/-! Well-formedness: every kind of ill-formed term is refused, an instruction is not. -/

theorem test_illegal_is_ill_formed : ¬ Instr.WellFormed .illegal00 ∧ ¬ Instr.WellFormed .illegal8F ∧ ¬ Instr.WellFormed .illegalFD := by
  decide

theorem test_every_illegal_row_is_ill_formed : ∀ c ∈ Instr.illegalRows, ¬ c.2.WellFormed := by decide

theorem test_instruction_is_well_formed : Instr.WellFormed .nop ∧ Instr.WellFormed (.ldaa (.imm 0xFF)) := by decide

/-! Decoding: the 256 rows of R71 and of spec/opcode_table.json, the opcode written in bits. -/

/-- Row 0 of the map of R71: each byte and its mode, with operand bytes 0x9C and 0x35. -/
theorem test_decode_row0 : decodesAll [
    ([0b00000000], .illegal00), ([0b00000001], .nop),
    ([0b00000010], .illegal02), ([0b00000011], .illegal03),
    ([0b00000100], .illegal04), ([0b00000101], .illegal05),
    ([0b00000110], .tap), ([0b00000111], .tpa),
    ([0b00001000], .inx), ([0b00001001], .dex),
    ([0b00001010], .clv), ([0b00001011], .sev),
    ([0b00001100], .clc), ([0b00001101], .sec),
    ([0b00001110], .cli), ([0b00001111], .sei)] = true := by decide +kernel

/-- Row 1 of the map of R71: each byte and its mode, with operand bytes 0x9C and 0x35. -/
theorem test_decode_row1 : decodesAll [
    ([0b00010000], .sba), ([0b00010001], .cba),
    ([0b00010010], .illegal12), ([0b00010011], .illegal13),
    ([0b00010100], .illegal14), ([0b00010101], .illegal15),
    ([0b00010110], .tab), ([0b00010111], .tba),
    ([0b00011000], .illegal18), ([0b00011001], .daa),
    ([0b00011010], .illegal1A), ([0b00011011], .aba),
    ([0b00011100], .illegal1C), ([0b00011101], .illegal1D),
    ([0b00011110], .illegal1E), ([0b00011111], .illegal1F)] = true := by decide +kernel

/-- Row 2 of the map of R71: each byte and its mode, with operand bytes 0x9C and 0x35. -/
theorem test_decode_row2 : decodesAll [
    ([0b00100000, 0x9C], .bra 0x9C), ([0b00100001], .illegal21),
    ([0b00100010, 0x9C], .bhi 0x9C), ([0b00100011, 0x9C], .bls 0x9C),
    ([0b00100100, 0x9C], .bcc 0x9C), ([0b00100101, 0x9C], .bcs 0x9C),
    ([0b00100110, 0x9C], .bne 0x9C), ([0b00100111, 0x9C], .beq 0x9C),
    ([0b00101000, 0x9C], .bvc 0x9C), ([0b00101001, 0x9C], .bvs 0x9C),
    ([0b00101010, 0x9C], .bpl 0x9C), ([0b00101011, 0x9C], .bmi 0x9C),
    ([0b00101100, 0x9C], .bge 0x9C), ([0b00101101, 0x9C], .blt 0x9C),
    ([0b00101110, 0x9C], .bgt 0x9C), ([0b00101111, 0x9C], .ble 0x9C)] = true := by decide +kernel

/-- Row 3 of the map of R71: each byte and its mode, with operand bytes 0x9C and 0x35. -/
theorem test_decode_row3 : decodesAll [
    ([0b00110000], .tsx), ([0b00110001], .ins),
    ([0b00110010], .pula), ([0b00110011], .pulb),
    ([0b00110100], .des), ([0b00110101], .txs),
    ([0b00110110], .psha), ([0b00110111], .pshb),
    ([0b00111000], .illegal38), ([0b00111001], .rts),
    ([0b00111010], .illegal3A), ([0b00111011], .rti),
    ([0b00111100], .illegal3C), ([0b00111101], .illegal3D),
    ([0b00111110], .wai), ([0b00111111], .swi)] = true := by decide +kernel

/-- Row 4 of the map of R71: each byte and its mode, with operand bytes 0x9C and 0x35. -/
theorem test_decode_row4 : decodesAll [
    ([0b01000000], .nega), ([0b01000001], .illegal41),
    ([0b01000010], .illegal42), ([0b01000011], .coma),
    ([0b01000100], .lsra), ([0b01000101], .illegal45),
    ([0b01000110], .rora), ([0b01000111], .asra),
    ([0b01001000], .asla), ([0b01001001], .rola),
    ([0b01001010], .deca), ([0b01001011], .illegal4B),
    ([0b01001100], .inca), ([0b01001101], .tsta),
    ([0b01001110], .illegal4E), ([0b01001111], .clra)] = true := by decide +kernel

/-- Row 5 of the map of R71: each byte and its mode, with operand bytes 0x9C and 0x35. -/
theorem test_decode_row5 : decodesAll [
    ([0b01010000], .negb), ([0b01010001], .illegal51),
    ([0b01010010], .illegal52), ([0b01010011], .comb),
    ([0b01010100], .lsrb), ([0b01010101], .illegal55),
    ([0b01010110], .rorb), ([0b01010111], .asrb),
    ([0b01011000], .aslb), ([0b01011001], .rolb),
    ([0b01011010], .decb), ([0b01011011], .illegal5B),
    ([0b01011100], .incb), ([0b01011101], .tstb),
    ([0b01011110], .illegal5E), ([0b01011111], .clrb)] = true := by decide +kernel

/-- Row 6 of the map of R71: each byte and its mode, with operand bytes 0x9C and 0x35. -/
theorem test_decode_row6 : decodesAll [
    ([0b01100000, 0x9C], .neg (.idx 0x9C)), ([0b01100001], .illegal61),
    ([0b01100010], .illegal62), ([0b01100011, 0x9C], .com (.idx 0x9C)),
    ([0b01100100, 0x9C], .lsr (.idx 0x9C)), ([0b01100101], .illegal65),
    ([0b01100110, 0x9C], .ror (.idx 0x9C)), ([0b01100111, 0x9C], .asr (.idx 0x9C)),
    ([0b01101000, 0x9C], .asl (.idx 0x9C)), ([0b01101001, 0x9C], .rol (.idx 0x9C)),
    ([0b01101010, 0x9C], .dec (.idx 0x9C)), ([0b01101011], .illegal6B),
    ([0b01101100, 0x9C], .inc (.idx 0x9C)), ([0b01101101, 0x9C], .tst (.idx 0x9C)),
    ([0b01101110, 0x9C], .jmp (.idx 0x9C)), ([0b01101111, 0x9C], .clr (.idx 0x9C))] = true := by decide +kernel

/-- Row 7 of the map of R71: each byte and its mode, with operand bytes 0x9C and 0x35. -/
theorem test_decode_row7 : decodesAll [
    ([0b01110000, 0x9C, 0x35], .neg (.ext 0x9C35)), ([0b01110001], .illegal71),
    ([0b01110010], .illegal72), ([0b01110011, 0x9C, 0x35], .com (.ext 0x9C35)),
    ([0b01110100, 0x9C, 0x35], .lsr (.ext 0x9C35)), ([0b01110101], .illegal75),
    ([0b01110110, 0x9C, 0x35], .ror (.ext 0x9C35)), ([0b01110111, 0x9C, 0x35], .asr (.ext 0x9C35)),
    ([0b01111000, 0x9C, 0x35], .asl (.ext 0x9C35)), ([0b01111001, 0x9C, 0x35], .rol (.ext 0x9C35)),
    ([0b01111010, 0x9C, 0x35], .dec (.ext 0x9C35)), ([0b01111011], .illegal7B),
    ([0b01111100, 0x9C, 0x35], .inc (.ext 0x9C35)), ([0b01111101, 0x9C, 0x35], .tst (.ext 0x9C35)),
    ([0b01111110, 0x9C, 0x35], .jmp (.ext 0x9C35)), ([0b01111111, 0x9C, 0x35], .clr (.ext 0x9C35))] = true := by decide +kernel

/-- Row 8 of the map of R71: each byte and its mode, with operand bytes 0x9C and 0x35. -/
theorem test_decode_row8 : decodesAll [
    ([0b10000000, 0x9C], .suba (.imm 0x9C)), ([0b10000001, 0x9C], .cmpa (.imm 0x9C)),
    ([0b10000010, 0x9C], .sbca (.imm 0x9C)), ([0b10000011], .illegal83),
    ([0b10000100, 0x9C], .anda (.imm 0x9C)), ([0b10000101, 0x9C], .bita (.imm 0x9C)),
    ([0b10000110, 0x9C], .ldaa (.imm 0x9C)), ([0b10000111], .illegal87),
    ([0b10001000, 0x9C], .eora (.imm 0x9C)), ([0b10001001, 0x9C], .adca (.imm 0x9C)),
    ([0b10001010, 0x9C], .oraa (.imm 0x9C)), ([0b10001011, 0x9C], .adda (.imm 0x9C)),
    ([0b10001100, 0x9C, 0x35], .cpx (.imm 0x9C35)), ([0b10001101, 0x9C], .bsr 0x9C),
    ([0b10001110, 0x9C, 0x35], .lds (.imm 0x9C35)), ([0b10001111], .illegal8F)] = true := by decide +kernel

/-- Row 9 of the map of R71: each byte and its mode, with operand bytes 0x9C and 0x35. -/
theorem test_decode_row9 : decodesAll [
    ([0b10010000, 0x9C], .suba (.mem (.dir 0x9C))), ([0b10010001, 0x9C], .cmpa (.mem (.dir 0x9C))),
    ([0b10010010, 0x9C], .sbca (.mem (.dir 0x9C))), ([0b10010011], .illegal93),
    ([0b10010100, 0x9C], .anda (.mem (.dir 0x9C))), ([0b10010101, 0x9C], .bita (.mem (.dir 0x9C))),
    ([0b10010110, 0x9C], .ldaa (.mem (.dir 0x9C))), ([0b10010111, 0x9C], .staa (.dir 0x9C)),
    ([0b10011000, 0x9C], .eora (.mem (.dir 0x9C))), ([0b10011001, 0x9C], .adca (.mem (.dir 0x9C))),
    ([0b10011010, 0x9C], .oraa (.mem (.dir 0x9C))), ([0b10011011, 0x9C], .adda (.mem (.dir 0x9C))),
    ([0b10011100, 0x9C], .cpx (.mem (.dir 0x9C))), ([0b10011101], .illegal9D),
    ([0b10011110, 0x9C], .lds (.mem (.dir 0x9C))), ([0b10011111, 0x9C], .sts (.dir 0x9C))] = true := by decide +kernel

/-- Row A of the map of R71: each byte and its mode, with operand bytes 0x9C and 0x35. -/
theorem test_decode_rowA : decodesAll [
    ([0b10100000, 0x9C], .suba (.mem (.idx 0x9C))), ([0b10100001, 0x9C], .cmpa (.mem (.idx 0x9C))),
    ([0b10100010, 0x9C], .sbca (.mem (.idx 0x9C))), ([0b10100011], .illegalA3),
    ([0b10100100, 0x9C], .anda (.mem (.idx 0x9C))), ([0b10100101, 0x9C], .bita (.mem (.idx 0x9C))),
    ([0b10100110, 0x9C], .ldaa (.mem (.idx 0x9C))), ([0b10100111, 0x9C], .staa (.idx 0x9C)),
    ([0b10101000, 0x9C], .eora (.mem (.idx 0x9C))), ([0b10101001, 0x9C], .adca (.mem (.idx 0x9C))),
    ([0b10101010, 0x9C], .oraa (.mem (.idx 0x9C))), ([0b10101011, 0x9C], .adda (.mem (.idx 0x9C))),
    ([0b10101100, 0x9C], .cpx (.mem (.idx 0x9C))), ([0b10101101, 0x9C], .jsr (.idx 0x9C)),
    ([0b10101110, 0x9C], .lds (.mem (.idx 0x9C))), ([0b10101111, 0x9C], .sts (.idx 0x9C))] = true := by decide +kernel

/-- Row B of the map of R71: each byte and its mode, with operand bytes 0x9C and 0x35. -/
theorem test_decode_rowB : decodesAll [
    ([0b10110000, 0x9C, 0x35], .suba (.mem (.ext 0x9C35))), ([0b10110001, 0x9C, 0x35], .cmpa (.mem (.ext 0x9C35))),
    ([0b10110010, 0x9C, 0x35], .sbca (.mem (.ext 0x9C35))), ([0b10110011], .illegalB3),
    ([0b10110100, 0x9C, 0x35], .anda (.mem (.ext 0x9C35))), ([0b10110101, 0x9C, 0x35], .bita (.mem (.ext 0x9C35))),
    ([0b10110110, 0x9C, 0x35], .ldaa (.mem (.ext 0x9C35))), ([0b10110111, 0x9C, 0x35], .staa (.ext 0x9C35)),
    ([0b10111000, 0x9C, 0x35], .eora (.mem (.ext 0x9C35))), ([0b10111001, 0x9C, 0x35], .adca (.mem (.ext 0x9C35))),
    ([0b10111010, 0x9C, 0x35], .oraa (.mem (.ext 0x9C35))), ([0b10111011, 0x9C, 0x35], .adda (.mem (.ext 0x9C35))),
    ([0b10111100, 0x9C, 0x35], .cpx (.mem (.ext 0x9C35))), ([0b10111101, 0x9C, 0x35], .jsr (.ext 0x9C35)),
    ([0b10111110, 0x9C, 0x35], .lds (.mem (.ext 0x9C35))), ([0b10111111, 0x9C, 0x35], .sts (.ext 0x9C35))] = true := by decide +kernel

/-- Row C of the map of R71: each byte and its mode, with operand bytes 0x9C and 0x35. -/
theorem test_decode_rowC : decodesAll [
    ([0b11000000, 0x9C], .subb (.imm 0x9C)), ([0b11000001, 0x9C], .cmpb (.imm 0x9C)),
    ([0b11000010, 0x9C], .sbcb (.imm 0x9C)), ([0b11000011], .illegalC3),
    ([0b11000100, 0x9C], .andb (.imm 0x9C)), ([0b11000101, 0x9C], .bitb (.imm 0x9C)),
    ([0b11000110, 0x9C], .ldab (.imm 0x9C)), ([0b11000111], .illegalC7),
    ([0b11001000, 0x9C], .eorb (.imm 0x9C)), ([0b11001001, 0x9C], .adcb (.imm 0x9C)),
    ([0b11001010, 0x9C], .orab (.imm 0x9C)), ([0b11001011, 0x9C], .addb (.imm 0x9C)),
    ([0b11001100], .illegalCC), ([0b11001101], .illegalCD),
    ([0b11001110, 0x9C, 0x35], .ldx (.imm 0x9C35)), ([0b11001111], .illegalCF)] = true := by decide +kernel

/-- Row D of the map of R71: each byte and its mode, with operand bytes 0x9C and 0x35. -/
theorem test_decode_rowD : decodesAll [
    ([0b11010000, 0x9C], .subb (.mem (.dir 0x9C))), ([0b11010001, 0x9C], .cmpb (.mem (.dir 0x9C))),
    ([0b11010010, 0x9C], .sbcb (.mem (.dir 0x9C))), ([0b11010011], .illegalD3),
    ([0b11010100, 0x9C], .andb (.mem (.dir 0x9C))), ([0b11010101, 0x9C], .bitb (.mem (.dir 0x9C))),
    ([0b11010110, 0x9C], .ldab (.mem (.dir 0x9C))), ([0b11010111, 0x9C], .stab (.dir 0x9C)),
    ([0b11011000, 0x9C], .eorb (.mem (.dir 0x9C))), ([0b11011001, 0x9C], .adcb (.mem (.dir 0x9C))),
    ([0b11011010, 0x9C], .orab (.mem (.dir 0x9C))), ([0b11011011, 0x9C], .addb (.mem (.dir 0x9C))),
    ([0b11011100], .illegalDC), ([0b11011101], .illegalDD),
    ([0b11011110, 0x9C], .ldx (.mem (.dir 0x9C))), ([0b11011111, 0x9C], .stx (.dir 0x9C))] = true := by decide +kernel

/-- Row E of the map of R71: each byte and its mode, with operand bytes 0x9C and 0x35. -/
theorem test_decode_rowE : decodesAll [
    ([0b11100000, 0x9C], .subb (.mem (.idx 0x9C))), ([0b11100001, 0x9C], .cmpb (.mem (.idx 0x9C))),
    ([0b11100010, 0x9C], .sbcb (.mem (.idx 0x9C))), ([0b11100011], .illegalE3),
    ([0b11100100, 0x9C], .andb (.mem (.idx 0x9C))), ([0b11100101, 0x9C], .bitb (.mem (.idx 0x9C))),
    ([0b11100110, 0x9C], .ldab (.mem (.idx 0x9C))), ([0b11100111, 0x9C], .stab (.idx 0x9C)),
    ([0b11101000, 0x9C], .eorb (.mem (.idx 0x9C))), ([0b11101001, 0x9C], .adcb (.mem (.idx 0x9C))),
    ([0b11101010, 0x9C], .orab (.mem (.idx 0x9C))), ([0b11101011, 0x9C], .addb (.mem (.idx 0x9C))),
    ([0b11101100], .illegalEC), ([0b11101101], .illegalED),
    ([0b11101110, 0x9C], .ldx (.mem (.idx 0x9C))), ([0b11101111, 0x9C], .stx (.idx 0x9C))] = true := by decide +kernel

/-- Row F of the map of R71: each byte and its mode, with operand bytes 0x9C and 0x35. -/
theorem test_decode_rowF : decodesAll [
    ([0b11110000, 0x9C, 0x35], .subb (.mem (.ext 0x9C35))), ([0b11110001, 0x9C, 0x35], .cmpb (.mem (.ext 0x9C35))),
    ([0b11110010, 0x9C, 0x35], .sbcb (.mem (.ext 0x9C35))), ([0b11110011], .illegalF3),
    ([0b11110100, 0x9C, 0x35], .andb (.mem (.ext 0x9C35))), ([0b11110101, 0x9C, 0x35], .bitb (.mem (.ext 0x9C35))),
    ([0b11110110, 0x9C, 0x35], .ldab (.mem (.ext 0x9C35))), ([0b11110111, 0x9C, 0x35], .stab (.ext 0x9C35)),
    ([0b11111000, 0x9C, 0x35], .eorb (.mem (.ext 0x9C35))), ([0b11111001, 0x9C, 0x35], .adcb (.mem (.ext 0x9C35))),
    ([0b11111010, 0x9C, 0x35], .orab (.mem (.ext 0x9C35))), ([0b11111011, 0x9C, 0x35], .addb (.mem (.ext 0x9C35))),
    ([0b11111100], .illegalFC), ([0b11111101], .illegalFD),
    ([0b11111110, 0x9C, 0x35], .ldx (.mem (.ext 0x9C35))), ([0b11111111, 0x9C, 0x35], .stx (.ext 0x9C35))] = true := by decide +kernel
/-- A sequence that ends inside an instruction is rejected by name; so is an empty one. -/
theorem test_decode_rejects_short : decode [] = .error .noBytes ∧ ∀ op : Byte, operandCount op = 2 → ∃ e, decode [op, 0] = .error e := by
  refine ⟨rfl, fun op h => ?_⟩
  simp [decode, h]

/-- 7F 10 34 as a table word: the first byte in the low bits, the second above it. -/
theorem test_decode_table_word : decodeTableWord 24 0x34107F = some (.clr (.ext 0x1034)) ∧ decodeTableWord 16 0xFA26 = some (.bne 0xFA) ∧
    decodeTableWord 8 0x3F = some .swi := by decide +kernel

/-- The instruction stored by `withFetchWord` is the first one run after reset. -/
theorem test_with_fetch_word : view regs (step (State.reset.withFetchWord 16 0x5586)) = some (0x55, 0, 0, 0, 0xF002, 0xD0) := by
  decide +kernel

/-! Reset (R280). -/

theorem test_reset_memory_wf : Memory.wf State.reset.mem := by decide

theorem test_write_keeps_canonical : (Memory.write [(1, 5), (3, 7)] 2 6 = [(1, 5), (2, 6), (3, 7)]) ∧ Memory.write [(1, 5)] 1 0 = [] := by
  decide

/-! Add and subtract: the tables T2.1 and T2.2, flags in the order H I N Z V C. -/

/-- A row of a table: the operands, the carry in, the result, CC. -/
def addRow (l : Byte × Byte × Bool × Byte × Byte) : Bool :=
  let r := add8 l.1 l.2.1 l.2.2.1 (CC.ofByte 0)
  decide (r.value = l.2.2.2.1 ∧ r.cc.toByte = l.2.2.2.2)

theorem test_add8_table : [(0x00#8, 0x00#8, false, 0x00#8, 0xC4#8), (0x7F, 0x01, false, 0x80, 0xEA), (0x80, 0x80, false, 0x00, 0xC7),
    (0xFF, 0x01, false, 0x00, 0xE5), (0x3A, 0xC6, false, 0x00, 0xE5), (0x0F, 0x01, false, 0x10, 0xE0),
    (0x01, 0x08, false, 0x09, 0xC0), (0x08, 0x08, false, 0x10, 0xE0), (0x40, 0x40, false, 0x80, 0xCA),
    (0x10, 0x0F, true, 0x20, 0xE0), (0x00, 0xFF, true, 0x00, 0xE5), (0x00, 0x7F, true, 0x80, 0xEA),
    (0x80, 0x7F, true, 0x00, 0xE5), (0xFF, 0xFF, true, 0xFF, 0xE9)].all addRow = true := by decide +kernel

/-- The same for a subtraction; H is kept. -/
def subRow (l : Byte × Byte × Bool × Byte × Byte) : Bool :=
  let r := sub8 l.1 l.2.1 l.2.2.1 (CC.ofByte 0x20)
  decide (r.value = l.2.2.2.1 ∧ r.cc.toByte = l.2.2.2.2)

theorem test_sub8_table : [(0x00#8, 0x01#8, false, 0xFF#8, 0xE9#8), (0x05, 0x05, false, 0x00, 0xE4), (0x80, 0x01, false, 0x7F, 0xE2),
    (0x7F, 0xFF, false, 0x80, 0xEB), (0x7F, 0x80, false, 0xFF, 0xEB), (0x50, 0x60, false, 0xF0, 0xE9),
    (0x00, 0x80, false, 0x80, 0xEB), (0xFF, 0x7F, false, 0x80, 0xE8), (0x05, 0x05, true, 0xFF, 0xE9),
    (0x00, 0xFF, true, 0x00, 0xE5), (0x80, 0x00, true, 0x7F, 0xE2), (0x20, 0x0F, true, 0x10, 0xE0),
    (0x00, 0x00, true, 0xFF, 0xE9)].all subRow = true := by decide +kernel

/-! One step of an instruction each: registers A, B, X, SP, PC and CC after it. -/

theorem test_adda : regsAfter [0x8B, 0xC6] (machine 0x3A 0 0 0 0xD0) = some (0x00, 0, 0, 0, 0xF002, 0xF5) := by decide +kernel
theorem test_addb : regsAfter [0xDB, 0x10] (machine 0 0x01 0 0 0xD0) = some (0, 0x80, 0, 0, 0xF002, 0xFA) := by decide +kernel
theorem test_adca : regsAfter [0x89, 0xFF] (machine 0x00 0 0 0 0xD1) = some (0x00, 0, 0, 0, 0xF002, 0xF5) := by decide +kernel
theorem test_adcb : regsAfter [0xC9, 0x0F] (machine 0 0x10 0 0 0xD1) = some (0, 0x20, 0, 0, 0xF002, 0xF0) := by decide +kernel
theorem test_aba : regsAfter [0x1B] (machine 0x99 0x01 0 0 0xD0) = some (0x9A, 0x01, 0, 0, 0xF001, 0xD8) := by decide +kernel
theorem test_suba : regsAfter [0x80, 0x60] (machine 0x50 0 0 0 0xF0) = some (0xF0, 0, 0, 0, 0xF002, 0xF9) := by decide +kernel
theorem test_subb : regsAfter [0xE0, 0x10] (machine 0 0xFF 0 0 0xD0) = some (0, 0x80, 0, 0, 0xF002, 0xD8) := by decide +kernel
theorem test_sbca : regsAfter [0x82, 0x0F] (machine 0x20 0 0 0 0xD1) = some (0x10, 0, 0, 0, 0xF002, 0xD0) := by decide +kernel
theorem test_sbcb : regsAfter [0xC2, 0xFF] (machine 0 0x00 0 0 0xD1) = some (0, 0x00, 0, 0, 0xF002, 0xD5) := by decide +kernel
theorem test_sba : regsAfter [0x10] (machine 0x10 0x20 0 0 0xD0) = some (0xF0, 0x20, 0, 0, 0xF001, 0xD9) := by decide +kernel
theorem test_cmpa : regsAfter [0x81, 0x80] (machine 0x7F 0 0 0 0xD0) = some (0x7F, 0, 0, 0, 0xF002, 0xDB) := by decide +kernel
theorem test_cmpb : regsAfter [0xF1, 0x00, 0x10] (machine 0 0x7F 0 0 0xD0) = some (0, 0x7F, 0, 0, 0xF003, 0xD4) := by decide +kernel
theorem test_cba : regsAfter [0x11] (machine 0x80 0x01 0 0 0xD0) = some (0x80, 0x01, 0, 0, 0xF001, 0xD2) := by decide +kernel
theorem test_nega : regsAfter [0x40] (machine 0x80 0 0 0 0xF0) = some (0x80, 0, 0, 0, 0xF001, 0xFB) := by decide +kernel
theorem test_negb : regsAfter [0x50] (machine 0 0x00 0 0 0xD1) = some (0, 0x00, 0, 0, 0xF001, 0xD4) := by decide +kernel
theorem test_inca : regsAfter [0x4C] (machine 0x7F 0 0 0 0xD1) = some (0x80, 0, 0, 0, 0xF001, 0xDB) := by decide +kernel
theorem test_incb : regsAfter [0x5C] (machine 0 0xFF 0 0 0xD1) = some (0, 0x00, 0, 0, 0xF001, 0xD5) := by decide +kernel
theorem test_deca : regsAfter [0x4A] (machine 0x80 0 0 0 0xD1) = some (0x7F, 0, 0, 0, 0xF001, 0xD3) := by decide +kernel
theorem test_decb : regsAfter [0x5A] (machine 0 0x00 0 0 0xD1) = some (0, 0xFF, 0, 0, 0xF001, 0xD9) := by decide +kernel
theorem test_neg : byteAndCc [0x70, 0x00, 0x30] 0x30 (machine 0 0 0 0 0xD0) = some (some 0x80, 0xDB) := by decide +kernel
theorem test_inc : byteAndCc [0x7C, 0x00, 0x10] 0x10 (machine 0 0 0 0 0xD0) = some (some 0x80, 0xDA) := by decide +kernel
theorem test_dec : byteAndCc [0x6A, 0x05] 0x15 (machine 0 0 0x10 0 0xD0) = some (some 0xFF, 0xD8) := by decide +kernel
theorem test_inx : regsAfter [0x08] (machine 0 0 0xFFFF 0 0xD8) = some (0, 0, 0x0000, 0, 0xF001, 0xDC) := by decide +kernel
theorem test_dex : regsAfter [0x09] (machine 0 0 0x0000 0 0xD4) = some (0, 0, 0xFFFF, 0, 0xF001, 0xD0) := by decide +kernel
theorem test_ins : regsAfter [0x31] (machine 0 0 0 0xFFFF 0xD0) = some (0, 0, 0, 0x0000, 0xF001, 0xD0) := by decide +kernel
theorem test_des : regsAfter [0x34] (machine 0 0 0 0x0000 0xD4) = some (0, 0, 0, 0xFFFF, 0xF001, 0xD4) := by decide +kernel

/-- The rows of T2.4: A and CC before; then A, and the flags H N Z C as CC would hold them with V at 0. V is free. -/
def daaRow (l : Byte × Byte × Byte × Byte) : Bool :=
  decide (view (fun t => (t.a, { t.cc with v := false }.toByte)) (exec .daa (machine l.1 0 0 0 l.2.1)) = some (l.2.2.1, l.2.2.2))

theorem test_daa : [(0x00#8, 0xC0#8, 0x00#8, 0xC4#8), (0x45, 0xC0, 0x45, 0xC0), (0x0A, 0xC0, 0x10, 0xC0), (0x12, 0xE0, 0x18, 0xE0),
    (0x8A, 0xC0, 0x90, 0xC8), (0x9A, 0xC0, 0x00, 0xC5), (0xA3, 0xE0, 0x09, 0xE1), (0xFF, 0xC0, 0x65, 0xC1),
    (0x10, 0xC1, 0x70, 0xC1), (0x2B, 0xC1, 0x91, 0xC9), (0x33, 0xE1, 0x99, 0xE9)].all daaRow = true := by decide +kernel

/-- The rows of T2.5, with C = 1. -/
def cpxRow (l : Word × Word × Byte) : Bool :=
  decide (view (fun t => t.cc.toByte) (exec (.cpx (.imm l.2.1)) (machine 0 0 l.1 0 0xD1)) = some l.2.2)

theorem test_cpx : [(0x1234#16, 0x1234#16, 0xD5#8), (0x1000, 0x1001, 0xD1), (0x0100, 0x00FF, 0xD1), (0x00FF, 0x0100, 0xD9),
    (0x8000, 0x0100, 0xD3), (0x0000, 0x8000, 0xDB), (0x0000, 0x0001, 0xD1), (0xFFFF, 0x0000, 0xD9),
    (0x7F00, 0xFF00, 0xDB)].all cpxRow = true := by decide +kernel

/-! Shifts and rotates (T2.7). -/

theorem test_asla : regsAfter [0x48] (machine 0x55 0 0 0 0xD1) = some (0xAA, 0, 0, 0, 0xF001, 0xDA) := by decide +kernel
theorem test_aslb : regsAfter [0x58] (machine 0 0xC0 0 0 0xD0) = some (0, 0x80, 0, 0, 0xF001, 0xD9) := by decide +kernel
theorem test_asra : regsAfter [0x47] (machine 0x80 0 0 0 0xD0) = some (0xC0, 0, 0, 0, 0xF001, 0xDA) := by decide +kernel
theorem test_asrb : regsAfter [0x57] (machine 0 0x55 0 0 0xD1) = some (0, 0x2A, 0, 0, 0xF001, 0xD3) := by decide +kernel
theorem test_lsra : regsAfter [0x44] (machine 0xFF 0 0 0 0xD1) = some (0x7F, 0, 0, 0, 0xF001, 0xD3) := by decide +kernel
theorem test_lsrb : regsAfter [0x54] (machine 0 0x80 0 0 0xD1) = some (0, 0x40, 0, 0, 0xF001, 0xD0) := by decide +kernel
theorem test_rola : regsAfter [0x49] (machine 0x80 0 0 0 0xD1) = some (0x01, 0, 0, 0, 0xF001, 0xD3) := by decide +kernel
theorem test_rolb : regsAfter [0x59] (machine 0 0x55 0 0 0xD1) = some (0, 0xAB, 0, 0, 0xF001, 0xDA) := by decide +kernel
theorem test_rora : regsAfter [0x46] (machine 0x01 0 0 0 0xD1) = some (0x80, 0, 0, 0, 0xF001, 0xD9) := by decide +kernel
theorem test_rorb : regsAfter [0x56] (machine 0 0x00 0 0 0xD1) = some (0, 0x80, 0, 0, 0xF001, 0xDA) := by decide +kernel
theorem test_asl : byteAndCc [0x78, 0x00, 0x30] 0x30 (machine 0 0 0 0 0xD0) = some (some 0x00, 0xD7) := by decide +kernel
theorem test_asr : byteAndCc [0x67, 0x00] 0x30 (machine 0 0 0x30 0 0xD0) = some (some 0xC0, 0xDA) := by decide +kernel
theorem test_lsr : byteAndCc [0x64, 0x00] 0x30 (machine 0 0 0x30 0 0xD1) = some (some 0x40, 0xD0) := by decide +kernel
theorem test_rol : byteAndCc [0x79, 0x00, 0x30] 0x30 (machine 0 0 0 0 0xD1) = some (some 0x01, 0xD3) := by decide +kernel
theorem test_ror : byteAndCc [0x66, 0x00] 0x30 (machine 0 0 0x30 0 0xD0) = some (some 0x40, 0xD0) := by decide +kernel

/-! Branches, jumps, calls (T2.8, T2.9). -/

/-- The columns of T2.8 as the sets of rows that take the branch: bit `k` of the number is the row whose N Z V C read `k`. -/
def takenIn (c : Cond) : Nat := ((List.range 16).map fun k => if condHolds c (CC.ofByte (BitVec.ofNat 8 k)) then 2 ^ k else 0).sum

theorem test_branch_conditions : [Cond.always, .hi, .ls, .cc, .cs, .ne, .eq, .vc, .vs, .pl, .mi, .ge, .lt, .gt, .le].map takenIn =
    [0xFFFF, 0x0505, 0xFAFA, 0x5555, 0xAAAA, 0x0F0F, 0xF0F0, 0x3333, 0xCCCC, 0x00FF, 0xFF00, 0xCC33, 0x33CC, 0x0C03, 0xF3FC] := by
  decide +kernel

theorem test_branch_targets : [regsAfter [0x20, 0x7F], regsAfter [0x20, 0x80], regsAfter [0x20, 0xFE], regsAfter [0x27, 0x10]].map
    (fun f => (f (machine 0 0 0 0 0xD0)).map fun r => r.2.2.2.2.1) = [some 0xF081, some 0xEF82, some 0xF000, some 0xF002] := by
  decide +kernel

theorem test_beq_taken : regsAfter [0x27, 0x10] (machine 0 0 0 0 0xD4) = some (0, 0, 0, 0, 0xF012, 0xD4) := by decide +kernel
theorem test_bsr : bytesAfter [0x8D, 0x10] [0xFF, 0xFE] (machine 0 0 0 0xFF 0xD0) = some [some 0x02, some 0xF0] ∧
    regsAfter [0x8D, 0x10] (machine 0 0 0 0xFF 0xD0) = some (0, 0, 0, 0xFD, 0xF012, 0xD0) := by decide +kernel
theorem test_jsr_indexed : regsAfter [0xAD, 0x20] (machine 0 0 0xF100 0xFF 0xD0) = some (0, 0, 0xF100, 0xFD, 0xF120, 0xD0) := by
  decide +kernel
theorem test_jsr_extended : bytesAfter [0xBD, 0xF2, 0x34] [0xFF, 0xFE] (machine 0 0 0 0xFF 0xD0) = some [some 0x03, some 0xF0] := by
  decide +kernel
theorem test_jmp_extended : regsAfter [0x7E, 0xF1, 0x23] (machine 0 0 0 0 0xD0) = some (0, 0, 0, 0, 0xF123, 0xD0) := by decide +kernel
theorem test_jmp_indexed : regsAfter [0x6E, 0x00] (machine 0 0 0xF055 0 0xD0) = some (0, 0, 0xF055, 0, 0xF055, 0xD0) := by decide +kernel
theorem test_rts : regsAfter [0x39] (place [0xF0, 0x0A] 0xFE (machine 0 0 0 0xFD 0xD0)) = some (0, 0, 0, 0xFF, 0xF00A, 0xD0) := by
  decide +kernel

/-! Loads, stores, transfers, the stack (T2.10). -/

theorem test_ldaa : regsAfter [0xA6, 0x10] (machine 0 0 0x20 0 0xD3) = some (0x80, 0, 0x20, 0, 0xF002, 0xD9) := by decide +kernel
theorem test_ldaa_wraps : regsAfter [0xA6, 0xFF] (place [0x77] 0xEF (machine 0 0 0xFFF0 0 0xD3)) =
    some (0x77, 0, 0xFFF0, 0, 0xF002, 0xD1) := by decide +kernel
theorem test_ldab : regsAfter [0xD6, 0x31] (machine 0 7 0 0 0xD2) = some (0, 0x00, 0, 0, 0xF002, 0xD4) := by decide +kernel
theorem test_ldx : regsAfter [0xCE, 0x80, 0x00] (machine 0 0 0 0 0xD2) = some (0, 0, 0x8000, 0, 0xF003, 0xD8) := by decide +kernel
theorem test_lds : regsAfter [0x9E, 0x20] (machine 0 0 0 0 0xD2) = some (0, 0, 0, 0x1234, 0xF002, 0xD0) := by decide +kernel
theorem test_staa : byteAndCc [0xA7, 0x00] 0x50 (machine 0x80 0 0x50 0 0xD3) = some (some 0x80, 0xD9) := by decide +kernel
theorem test_stab : byteAndCc [0xD7, 0x10] 0x10 (machine 0x80 0 0 0 0xD3) = some (some 0x00, 0xD5) := by decide +kernel
theorem test_stx : bytesAfter [0xDF, 0x40] [0x40, 0x41] (machine 0 0 0xBEEF 0 0xD0) = some [some 0xBE, some 0xEF] := by decide +kernel
theorem test_sts : bytesAfter [0xBF, 0x00, 0x20] [0x20, 0x21] (machine 0 0 0 0 0xD0) = some [some 0x00, some 0x00] := by decide +kernel
theorem test_tab : regsAfter [0x16] (machine 0x80 0 0 0 0xD3) = some (0x80, 0x80, 0, 0, 0xF001, 0xD9) := by decide +kernel
theorem test_tba : regsAfter [0x17] (machine 0x05 0 0 0 0xD3) = some (0x00, 0, 0, 0, 0xF001, 0xD5) := by decide +kernel
theorem test_tsx : regsAfter [0x30] (machine 0 0 7 0xFFFF 0xD0) = some (0, 0, 0x0000, 0xFFFF, 0xF001, 0xD0) := by decide +kernel
theorem test_txs : regsAfter [0x35] (machine 0 0 0 7 0xD0) = some (0, 0, 0, 0xFFFF, 0xF001, 0xD0) := by decide +kernel
theorem test_psha : bytesAfter [0x36] [0x80] (machine 0xAA 0 0 0x80 0xD0) = some [some 0xAA] ∧
    regsAfter [0x36] (machine 0x01 0 0 0x0000 0xD0) = some (0x01, 0, 0, 0xFFFF, 0xF001, 0xD0) := by decide +kernel
theorem test_pshb : bytesAfter [0x37] [0x80] (machine 0 0xAA 0 0x80 0xD0) = some [some 0xAA] := by decide +kernel
theorem test_pula : regsAfter [0x32] (place [0x09] 0 (machine 0 0 0 0xFFFF 0xD4)) = some (0x09, 0, 0, 0, 0xF001, 0xD4) := by decide +kernel
theorem test_pulb : regsAfter [0x33] (machine 0 0 0 0x2F 0xD4) = some (0, 0x80, 0, 0x30, 0xF001, 0xD4) := by decide +kernel

/-! Logic, test, clear (T2.3, T2.11). -/

theorem test_anda : regsAfter [0x84, 0x00] (machine 0xFF 0 0 0 0xD3) = some (0x00, 0, 0, 0, 0xF002, 0xD5) := by decide +kernel
theorem test_andb : regsAfter [0xC4, 0x3C] (machine 0 0xF0 0 0 0xD0) = some (0, 0x30, 0, 0, 0xF002, 0xD0) := by decide +kernel
theorem test_oraa : regsAfter [0x9A, 0x30] (machine 0x0F 0 0 0 0xD0) = some (0x8F, 0, 0, 0, 0xF002, 0xD8) := by decide +kernel
theorem test_orab : regsAfter [0xCA, 0x80] (machine 0 0x0F 0 0 0xD0) = some (0, 0x8F, 0, 0, 0xF002, 0xD8) := by decide +kernel
theorem test_eora : regsAfter [0x88, 0x0F] (machine 0xFF 0 0 0 0xD0) = some (0xF0, 0, 0, 0, 0xF002, 0xD8) := by decide +kernel
theorem test_eorb : regsAfter [0xC8, 0xFF] (machine 0 0xFF 0 0 0xD1) = some (0, 0x00, 0, 0, 0xF002, 0xD5) := by decide +kernel
theorem test_bita : regsAfter [0x85, 0x80] (machine 0x80 0 0 0 0xD0) = some (0x80, 0, 0, 0, 0xF002, 0xD8) := by decide +kernel
theorem test_bitb : regsAfter [0xC5, 0x01] (machine 0 0xFE 0 0 0xD0) = some (0, 0xFE, 0, 0, 0xF002, 0xD4) := by decide +kernel
theorem test_coma : regsAfter [0x43] (machine 0x7F 0 0 0 0xD2) = some (0x80, 0, 0, 0, 0xF001, 0xD9) := by decide +kernel
theorem test_comb : regsAfter [0x53] (machine 0 0xFF 0 0 0xD0) = some (0, 0x00, 0, 0, 0xF001, 0xD5) := by decide +kernel
theorem test_com : byteAndCc [0x73, 0x00, 0x11] 0x11 (machine 0 0 0 0 0xD0) = some (some 0xFF, 0xD9) := by decide +kernel
theorem test_tsta : regsAfter [0x4D] (machine 0x80 0 0 0 0xD3) = some (0x80, 0, 0, 0, 0xF001, 0xD8) := by decide +kernel
theorem test_tstb : regsAfter [0x5D] (machine 0 0 0 0 0xD1) = some (0, 0, 0, 0, 0xF001, 0xD4) := by decide +kernel
theorem test_tst : byteAndCc [0x6D, 0x00] 0x30 (machine 0 0 0x30 0 0xD1) = some (some 0x80, 0xD8) := by decide +kernel
theorem test_clra : regsAfter [0x4F] (machine 0xFF 0 0 0 0xD1) = some (0x00, 0, 0, 0, 0xF001, 0xD4) := by decide +kernel
theorem test_clrb : regsAfter [0x5F] (machine 0 0xFF 0 0 0xDB) = some (0, 0x00, 0, 0, 0xF001, 0xD4) := by decide +kernel
theorem test_clr : byteAndCc [0x7F, 0x00, 0x10] 0x10 (machine 0 0 0 0 0xDB) = some (some 0x00, 0xD4) := by decide +kernel

/-! Condition codes and interrupts (T2.11, T1.5, P9, P10). -/

theorem test_flag_instructions : [regsAfter [0x0C] (machine 0 0 0 0 0xC1), regsAfter [0x0D] (machine 0 0 0 0 0xC0),
    regsAfter [0x0A] (machine 0 0 0 0 0xC2), regsAfter [0x0B] (machine 0 0 0 0 0xC0), regsAfter [0x0E] (machine 0 0 0 0 0xD0),
    regsAfter [0x0F] (machine 0 0 0 0 0xC0)].map (fun r => r.map fun x => x.2.2.2.2.2) =
    [some 0xC0, some 0xC1, some 0xC0, some 0xC2, some 0xC0, some 0xD0] := by decide +kernel
theorem test_tap : regsAfter [0x06] (machine 0xFF 0 0 0 0xD0) = some (0xFF, 0, 0, 0, 0xF001, 0xFF) := by decide +kernel
theorem test_tap_mixed : regsAfter [0x06] (machine 0x15 0 0 0 0xC0) = some (0x15, 0, 0, 0, 0xF001, 0xD5) := by decide +kernel
theorem test_tpa : regsAfter [0x07] (machine 0 0 0 0 0xD5) = some (0xD5, 0, 0, 0, 0xF001, 0xD5) := by decide +kernel
theorem test_nop : regsAfter [0x01] (machine 1 2 3 4 0xDA) = some (1, 2, 3, 4, 0xF001, 0xDA) := by decide +kernel
theorem test_swi_frame : bytesAfter [0x3F] [0x79, 0x7A, 0x7B, 0x7C, 0x7D, 0x7E, 0x7F] (machine 0x01 0x77 0xABCD 0x7F 0xD8) =
    some [some 0xD8, some 0x77, some 0x01, some 0xAB, some 0xCD, some 0xF0, some 0x01] := by decide +kernel
theorem test_swi : regsAfter [0x3F] (machine 0x01 0x77 0xABCD 0x7F 0xC8) = some (0x01, 0x77, 0xABCD, 0x78, 0xF800, 0xD8) := by
  decide +kernel
theorem test_rti : regsAfter [0x3B] (place [0xC0, 0x22, 0x11, 0x33, 0x44, 0xF0, 0x01] 0xF9 (machine 0 0 0 0xF8 0xD0)) =
    some (0x11, 0x22, 0x3344, 0xFF, 0xF001, 0xC0) := by decide +kernel
theorem test_wai : view (fun t => (t.sp, t.pc, t.cc.toByte, t.waiWait)) (runs [0x3E] (machine 0 0 0 0x7F 0xC0)) =
    some (0x78, 0xF001, 0xC0, true) := by decide +kernel
theorem test_wai_frame : bytesAfter [0x3E] [0x79, 0x7F] (machine 0 0 0 0x7F 0xC0) = some [some 0xC0, some 0x01] := by decide +kernel
theorem test_nmi_ends_wait : view regs (step { machine 0 0 0 0x78 0xC0 with waiWait := true, nmiPending := true }) =
    some (0, 0, 0, 0x78, 0xF200, 0xD0) := by decide +kernel

theorem test_assert_nmi : view regs (step (assertNmi (machine 0 0 0 0x7F 0xD0))) = some (0, 0, 0, 0x78, 0xF200, 0xD0) := by decide +kernel

/-! Faults (T2.3, T2.10, T2.13). -/

theorem test_illegal_opcodes : [[0x00], [0x8F], [0xCF]].map (fun b => faultOf (runs b (machine 0 0 0 0 0xD0))) =
    [some (.illegalOpcode 0x00 0xF000), some (.illegalOpcode 0x8F 0xF000), some (.illegalOpcode 0xCF 0xF000)] := by decide +kernel
theorem test_bus_faults : [[0xB6, 0x20, 0x00], [0xB7, 0xF0, 0x00], [0x7C, 0xF8, 0x00], [0xB7, 0x05, 0x00], [0xFE, 0x00, 0xFF]].map
    (fun b => faultOf (runs b (machine 0 0 0 0 0xD0))) =
    [some (.busFault 0x2000 .readUnmapped), some (.busFault 0xF000 .writeToRom), some (.busFault 0xF800 .writeToRom),
      some (.busFault 0x0500 .writeUnmapped), some (.busFault 0x0100 .readUnmapped)] := by decide +kernel
theorem test_wai_fault_mode : faultOf (runs [0x3E] { machine 0 0 0 0x7F 0xC0 with config := { Config.tc with waiMode := .fault } }) =
    some (.unimplementedOpcode 0x3E 0xF000) := by decide +kernel

/-! The PIA and the decoder (T2.12). -/

theorem test_pia_write_sequence :
    ((piaWrite 0 0xA5 (piaWrite 1 0x04 (piaWrite 0 0xF0 State.reset))).portA =
      { Port.reset with directionRegister := 0xF0, controlRegister := 0x04, outputRegister := 0xA5 }) := by decide +kernel

/-- Port A after step 4 of T2.12. -/
def portAfter4 : Port := { Port.reset with directionRegister := 0xF0, controlRegister := 0x04, outputRegister := 0xA5 }

theorem test_pia_drive_and_read : (drivePort .a 0x3C { State.reset with portA := portAfter4 }).portA.controlRegister = 0x84 ∧
    (piaRead 0 (drivePort .a 0x3C { State.reset with portA := portAfter4 })).1 = 0xAC ∧
    (piaRead 0 (drivePort .a 0x3C { State.reset with portA := portAfter4 })).2.portA =
      { portAfter4 with inputLatch := 0x3C } := by decide +kernel

theorem test_pia_control_write : (piaWrite 1 0xFF { State.reset with portA := portAfter4 }).portA =
    { portAfter4 with controlRegister := 0x3F, controlLine2 := true } ∧
    (piaWrite 1 0x00 { State.reset with portA := { portAfter4 with controlRegister := 0xBF, controlLine2 := true } }).portA =
      { portAfter4 with controlRegister := 0x80, controlLine2 := true } := by decide +kernel

theorem test_cvsd_run_of_three : cvsdAddBit Config.tc true ⟨3, 0, 0⟩ = ⟨7, 1 / 8, 3 / 16⟩ ∧
    cvsdAddBit Config.tc false ⟨7, 85 / 512, 165 / 256⟩ = ⟨6, 85 / 1024, 1245 / 2048⟩ ∧
    cvsdAddBit Config.tc false ⟨4, 85 / 2048, 4245 / 8192⟩ = ⟨0, -939 / 8192, 7101 / 32768⟩ := by decide +kernel

/-- The constants are dyadic, so a binary format gives the same values: here single precision. -/
theorem test_cvsd_binary : cvsdAddBit { Config.tc with cvsdFloat := .binary 24 (-149) .nearestEven } true ⟨7, 1 / 8, 3 / 16⟩ = ⟨7, 5 / 32, 3 / 8⟩ := by
  decide +kernel

/-- Five is halfway between the two-bit numbers 4 and 6: what each rounding makes of it and of its negative. -/
theorem test_roundings : [Rounding.nearestEven, .nearestAway, .towardZero, .towardPositive, .towardNegative].map (fun m =>
      (roundTo (.binary 2 (-10) m) 5, roundTo (.binary 2 (-10) m) (-5), roundTo (.binary 2 (-10) m) 6)) =
    [(4, -4, 6), (6, -6, 6), (4, -4, 6), (6, -4, 6), (4, -6, 6)] := by decide +kernel

/-- Below the smallest normal number the unit in the last place stays: 3/8 in units of 1/4. -/
theorem test_rounding_at_least_exponent : roundTo (.binary 8 (-2) .nearestEven) (3 / 8) = 1 / 2 ∧
    roundTo (.binary 8 (-2) .towardZero) (3 / 8) = 1 / 4 := by decide +kernel

/-! The host's reads (R74). -/

theorem test_decode_one : [[0xA6, 0x10], [0xCE, 0x80, 0x00], [0x39], [0x8F]].map (fun b => decodeOne 0xF000 (place b 0xF000 (machine 0 0 0 0 0))) =
    [some ("LDAA", .indexed, [0x10], 2), some ("LDX", .wordImmediate, [0x80, 0x00], 3), some ("RTS", .inherent, [], 1),
      some ("ILLEGAL_8F", .inherent, [], 1)] := by decide +kernel

/-! Witnesses: for every statement with hypotheses, concrete states and operands that meet all of them, clause by clause and at
the ends of the ranges. A witness bears the name of its statement. -/

/-- A machine with all registers set and the stack at the top of RAM. -/
def base : State := machine 0x45 0x12 0x20 0xFF 0xD0

/-- Whether an address is writable RAM. -/
def isRam (s : State) (addr : Word) : Bool :=
  match resolve s.config addr with
  | some r => decide (r.owner = .ram) && r.writable
  | none => false

theorem storable_of {s : State} {addr : Word} (h : isRam s addr = true) : storable s addr := by
  unfold isRam at h
  split at h
  · next r hr => exact ⟨r, hr, by simpa using h⟩
  · cases h

theorem frameStorable_of {s : State} (h : (frameBytes s).all (fun c => isRam s c.1) = true) : frameStorable s :=
  fun c hc => storable_of (List.all_eq_true.mp h c hc)

/-- The view of a step that goes on. -/
theorem next_of {o : Host.Outcome State Fault Refusal} (h : (view (fun _ => ()) o).isSome = true) : ∃ t, o = .next t := by
  cases o with
  | next t => exact ⟨t, rfl⟩
  | fault f => cases h
  | refused r => cases h

/-- Whether an operation succeeds. -/
def succeeds {α : Type} (r : Res α) : Bool :=
  match r with
  | .ok _ _ => true
  | .fault _ => false

theorem ok_of {α : Type} {r : Res α} (h : succeeds r = true) : ∃ v t, r = .ok v t := by
  cases r with
  | ok v t => exact ⟨v, t, rfl⟩
  | fault f => cases h

theorem fault_of {α : Type} {r : Res α} (h : succeeds r = false) : ∃ e, r = .fault e := by
  cases r with
  | ok v t => cases h
  | fault f => exact ⟨f, rfl⟩

/-- The region of the PIA in configuration TC. -/
def piaRegion : Region := { lo := 0x0400, hi := 0x0403, owner := .pia, baseOffset := 0, writable := true }

theorem witness_DecodedBytesAreTheEncoding :
    decode [0x86, 0x55, 0x01] = .instr (.ldaa (.imm 0x55)) [0x01] ∧ decode [0x3F] = .instr .swi [] := by decide +kernel

theorem witness_OpcodeByteAloneDecides : 2 ≤ [0x00#8, 0x00].length ∧ 2 ≤ [0xFF#8, 0xFF, 0xFF].length := by decide

theorem witness_IllegalBytesStop : (0x00, Instr.illegal00) ∈ Instr.illegalRows ∧ (0xFD, Instr.illegalFD) ∈ Instr.illegalRows := by
  decide

/-- Instructions of one, two and three bytes, the last across the top of the address space. -/
theorem witness_StepRunsDecodedInstruction :
    (∀ c ∈ [([0x01#8], Instr.nop, 0xF000#16), ([0x86, 0x55], .ldaa (.imm 0x55), 0xF000), ([0x7E, 0x00, 0x10], .jmp (.ext 0x10), 0xFFFF)],
      let s := place c.1 c.2.2 { base with pc := c.2.2 }
      s.fault = none ∧ s.nmiPending = false ∧ irqTaken s = false ∧ s.waiWait = false ∧ decode c.1 = .instr c.2.1 [] ∧
        (∀ k, k < c.1.length → peek (s.pc + BitVec.ofNat 16 k) s = c.1[k]?) ∧ succeeds (fetchInstr s) = true) ∧
    succeeds (fetchInstr { base with pc := 0x2000 }) = false ∧
    succeeds (fetchInstr (place [0x7E] 0xFF { base with pc := 0xFF })) = false := by decide +kernel

/-- A machine whose address space has the regions given, in place of those of TC. -/
def withRegions (l : List Region) : State := { base with config := { base.config with regions := l } }

/-- RAM, with the window of the PIA right above it and ROM at the top. -/
def piaAboveRam : State := withRegions
  [{ lo := 0x0000, hi := 0x00FF, owner := .ram, baseOffset := 0, writable := true },
   { lo := 0x0100, hi := 0x0103, owner := .pia, baseOffset := 0, writable := true },
   { lo := 0xF000, hi := 0xFFFF, owner := .rom 0, baseOffset := 0, writable := false }]

/-- RAM, and a ROM that ends at an address. -/
def romEndsAt (hi : Word) : State := withRegions
  [{ lo := 0x0000, hi := 0x00FF, owner := .ram, baseOffset := 0, writable := true },
   { lo := 0xF000, hi := hi, owner := .rom 0, baseOffset := 0, writable := false }]

/-- The hypotheses of `entersThrough` in one state: the seven writes and then the vector read go through; or the writes fault; or
the vector read does. -/
def entryOutcome (vector : Word) (s : State) : Bool × Bool :=
  match busWrites (frameWrites s) s with
  | .ok _ t => (true, succeeds (memRead16 vector t))
  | .fault _ => (false, false)

/-- A stack in RAM, one that falls in the window of the PIA and then in RAM, one whose seventh and one whose first write faults, a
vector of which the second and one of which the first byte is not there. -/
theorem entry_hypotheses : [0xFFF8#16, 0xFFFA, 0xFFFC].map (fun v =>
      [entryOutcome v base, entryOutcome v { piaAboveRam with sp := 0x0103 }, entryOutcome v { base with sp := 0x0005 },
       entryOutcome v { base with sp := 0x0104 }, entryOutcome v (romEndsAt v), entryOutcome v (romEndsAt (v - 1))]) =
    List.replicate 3 [(true, true), (true, true), (false, false), (false, false), (true, false), (true, false)] := by decide +kernel

/-- A state with an NMI pending. -/
def nmiOf (s : State) : State := { s with nmiPending := true }

/-- For each clause a state that meets all its hypotheses: RAM at both ends of the addresses a whole frame fits at, then the accesses
of `entry_hypotheses`. -/
theorem witness_NmiEntry :
    (∀ s ∈ [nmiOf base, nmiOf { base with sp := 0x06 }], s.fault = none ∧ s.nmiPending = true ∧ s.waiWait = false ∧
      frameStorable s ∧ readable s 0xFFFC ∧ readable s 0xFFFD) ∧
    [nmiOf { piaAboveRam with sp := 0x0103 }, nmiOf { base with sp := 0x0005 }, nmiOf (romEndsAt 0xFFFC)].map (fun s =>
      (decide (s.fault = none), s.nmiPending, s.waiWait, entryOutcome 0xFFFC { s with nmiPending := false })) =
      [(true, true, false, true, true), (true, true, false, false, false), (true, true, false, true, false)] := by
  refine ⟨fun s hs => ?_, by decide +kernel⟩
  refine ⟨?_, ?_, ?_, frameStorable_of ?_, ?_, ?_⟩ <;> revert s <;> decide +kernel

/-- A state with one port latched and I clear. -/
def irqOf (p : PortId) (s : State) : State := { drivePort p 0x5A s with cc := CC.ofByte 0xC0 }

theorem witness_IrqEntry :
    (∀ s ∈ [irqOf .a base, irqOf .b base], s.fault = none ∧ s.nmiPending = false ∧ s.waiWait = false ∧
      (s.portA.irqLatched = true ∨ s.portB.irqLatched = true) ∧ s.cc.i = false ∧ frameStorable s ∧
      readable s 0xFFF8 ∧ readable s 0xFFF9) ∧
    [irqOf .b { piaAboveRam with sp := 0x0103 }, irqOf .a { base with sp := 0x0005 }, irqOf .b (romEndsAt 0xFFF8)].map (fun s =>
      (decide (s.fault = none ∧ s.nmiPending = false ∧ s.waiWait = false), irqTaken s, entryOutcome 0xFFF8 s)) =
      [(true, true, true, true), (true, true, false, false), (true, true, true, false)] := by
  refine ⟨fun s hs => ?_, by decide +kernel⟩
  refine ⟨?_, ?_, ?_, ?_, ?_, frameStorable_of ?_, ?_, ?_⟩ <;> revert s <;> decide +kernel

/-- A waiting machine for each of the three clauses, with a vector that is there and one that is not, the third clause with no latch
and with I set. -/
theorem witness_WaitingStep :
    (let s := { nmiOf base with waiWait := true }
     s.fault = none ∧ s.waiWait = true ∧ s.nmiPending = true ∧ readable s 0xFFFC ∧ readable s 0xFFFD) ∧
    (let s := { nmiOf (romEndsAt 0xFFFC) with waiWait := true }
     s.fault = none ∧ s.waiWait = true ∧ s.nmiPending = true ∧ succeeds (memRead16 0xFFFC { s with nmiPending := false }) = false) ∧
    (let s := { irqOf .b base with waiWait := true }
     s.fault = none ∧ s.waiWait = true ∧ s.nmiPending = false ∧ s.portB.irqLatched = true ∧ s.cc.i = false ∧
       readable s 0xFFF8 ∧ readable s 0xFFF9) ∧
    (let s := { irqOf .a (romEndsAt 0xFFF7) with waiWait := true }
     s.fault = none ∧ s.waiWait = true ∧ s.nmiPending = false ∧ s.portA.irqLatched = true ∧ s.cc.i = false ∧
       succeeds (memRead16 0xFFF8 s) = false) ∧
    (let s := { machine 0 0 0 0 0xC0 with waiWait := true }
     s.fault = none ∧ s.waiWait = true ∧ s.nmiPending = false ∧ s.portA.irqLatched = false ∧ s.portB.irqLatched = false) ∧
    (let s := { drivePort .a 0 base with waiWait := true }
     s.fault = none ∧ s.waiWait = true ∧ s.nmiPending = false ∧ s.cc.i = true) := by decide +kernel

theorem witness_FaultIsAbsorbing : { base with fault := some (.busFault 0x2000 .readUnmapped) }.fault = some (.busFault 0x2000 .readUnmapped) ∧
    ∀ op ∈ [HostOp.step, .drivePort .a 1, .assertNmi], ∀ d, op ≠ .reset d := by
  refine ⟨rfl, fun op h d => ?_⟩
  rintro rfl
  simp at h

/-- Values of what reset leaves unspecified. -/
def draw : ResetDraw where
  a := 0xFF
  b := 0x01
  x := 0xFFFF
  sp := 0x00FF
  h := true
  n := true
  z := false
  v := true
  c := true
  ram := [(0x00, 0xAA), (0xFF, 0x55)]

/-- A vector in ROM; one in the window of the PIA, both ways; one that is not there; and one whose second byte is not. -/
theorem witness_ResetElements :
    (let t := construct Config.tc draw
     resetByte t 0xFFFE 0xF0 ∧ resetByte t 0xFFFF 0x00) ∧
    (let t := hostReset draw (withRegions [{ lo := 0xFFFC, hi := 0xFFFF, owner := .pia, baseOffset := 0, writable := true }])
     resetByte t 0xFFFE 0x00 ∧ resetByte t 0xFFFF 0x00) ∧
    resolve (construct { Config.tc with regions := [] } draw).config 0xFFFE = none ∧
    (let t := hostReset draw (romEndsAt 0xFFFE)
     resolve t.config 0xFFFE ≠ none ∧ resolve t.config 0xFFFF = none) ∧
    base.fault = none ∧ { base with fault := some (.busFault 0x2000 .readUnmapped) }.fault ≠ none := by
  refine ⟨⟨.inl (by decide +kernel), .inl (by decide +kernel)⟩, ⟨.inr ⟨?_, rfl⟩, .inr ⟨?_, rfl⟩⟩, by decide +kernel, by decide +kernel,
    by decide +kernel, by decide +kernel⟩ <;>
  exact ⟨{ lo := 0xFFFC, hi := 0xFFFF, owner := .pia, baseOffset := 0, writable := true }, by decide +kernel, rfl⟩

/-- Each of the three instructions clears I here, in a step. -/
theorem witness_OnlyThreeInstructionsUnmask : ∀ c ∈ [([0x0E#8], Instr.cli), ([0x06], .tap), ([0x3B], .rti)],
    let s := place [0x00] 0xF9 (place c.1 0xF000 { base with a := 0x00, sp := 0xF8 })
    view (fun t => (s.cc.i, t.cc.i)) (exec c.2 s) = some (true, false) ∧
      view (fun t => (s.cc.i, t.cc.i)) (step s) = some (true, false) := by decide +kernel

theorem witness_DrivePortThenRead : ∀ c ∈ [(PortId.a, 0x0400#16), (.b, 0x0402)],
    let s := base.setPort c.1 { Port.reset with controlRegister := 0x04, directionRegister := 0xF0, outputRegister := 0xA5 }
    (s.port c.1).controlRegister.getLsbD 2 = true ∧ resolve s.config c.2 = some piaRegion ∧ piaRegion.owner = .pia ∧
      c.2 = piaRegion.lo + (if c.1 = .a then 0 else 2) := by decide +kernel

/-- The ends of every region of TC, and the addresses beside them. -/
theorem witness_ResolveIsUnique : mapLegal Config.tc ∧
    ([0x0000#16, 0x00FF, 0x0400, 0x0403, 0xF000, 0xFFFF].all fun addr =>
      decide (∃ r ∈ Config.tc.regions, r.lo.toNat ≤ addr.toNat ∧ addr.toNat ≤ r.hi.toNat)) = true ∧
    [0x0100#16, 0x03FF, 0x0404, 0xEFFF].map (resolve Config.tc) = [none, none, none, none] := by decide +kernel

/-- The owner of an address and whether it may be written. -/
def ownerAt (addr : Word) : Option (Owner × Bool) := (resolve base.config addr).map fun r => (r.owner, r.writable)

theorem witness_BusRead : [0x0100#16, 0xEFFF].map ownerAt = [none, none] ∧
    [0x0000#16, 0x00FF].map ownerAt = [some (.ram, true), some (.ram, true)] ∧
    [0xF000#16, 0xFFFF].map ownerAt = [some (.rom 0, false), some (.rom 0, false)] ∧
    [0x0400#16, 0x0403].map ownerAt = [some (.pia, true), some (.pia, true)] := by decide +kernel

theorem witness_BusWrite : [0x0404#16, 0x03FF].map ownerAt = [none, none] ∧
    [0xF001#16, 0xFFFE].map ownerAt = [some (.rom 0, false), some (.rom 0, false)] ∧
    [0x0401#16, 0x0402].map ownerAt = [some (.pia, true), some (.pia, true)] ∧
    [0x0001#16, 0x00FE].map ownerAt = [some (.ram, true), some (.ram, true)] := by decide +kernel

theorem witness_WordAccess : (storable base 0x0000 ∧ storable base (0x0000 + 1)) ∧ (storable base 0x00FE ∧ storable base (0x00FE + 1)) ∧
    ((∃ s1, memWrite8 0x00FF 0xBE base = .ok () s1) ∧ resolve base.config (0x00FF + 1) = none) ∧
    (∃ v s1, memRead8 0x0403 base = .ok v s1) ∧ resolve base.config (0x0403 + 1) = none :=
  ⟨⟨storable_of (by decide +kernel), storable_of (by decide +kernel)⟩, ⟨storable_of (by decide +kernel), storable_of (by decide +kernel)⟩,
    ⟨⟨_, rfl⟩, by decide +kernel⟩, ok_of (by decide +kernel), by decide +kernel⟩

theorem witness_PushThenPull : storable base base.sp ∧ storable base (base.sp - 1) ∧
    storable { base with sp := 0x0001 } 0x0001 ∧ storable { base with sp := 0x0001 } (0x0001 - 1) :=
  ⟨storable_of (by decide +kernel), storable_of (by decide +kernel), storable_of (by decide +kernel), storable_of (by decide +kernel)⟩

/-- An operand in RAM, one at the top of ROM, and a word across the top of the address space. -/
theorem witness_OperandOfEachMode : peek (effAddr (.dir 0x10) base) base = some 0x7F ∧ peek (effAddr (.idx 0x10) base) base = some 0x80 ∧
    peek (effAddr (.ext 0xFFFF) base) base = some 0x00 ∧ peek (effAddr (.ext 0xFFFF) base + 1) base = some 0x00 := by decide +kernel

/-- Each register of each port, with the direction and with the data register selected. -/
theorem witness_PiaRegisterRead : ∀ c ∈ [(PortId.a, 0x0401#16, 0x0400#16), (.b, 0x0403, 0x0402)],
    let s := base.setPort c.1 { Port.reset with controlRegister := 0x84 }
    (resolve s.config c.2.1 = some piaRegion ∧ c.2.1 = piaRegion.lo + (if c.1 = .a then 1 else 3)) ∧
      (resolve s.config c.2.2 = some piaRegion ∧ c.2.2 = piaRegion.lo + (if c.1 = .a then 0 else 2)) ∧
      (base.port c.1).controlRegister.getLsbD 2 = false ∧ (s.port c.1).controlRegister.getLsbD 2 = true := by decide +kernel

theorem witness_PiaRegisterWrite : ∀ c ∈ [(PortId.a, 0x0401#16, 0x0400#16), (.b, 0x0403, 0x0402)],
    piaRegion.owner = .pia ∧ piaRegion.writable = true ∧
    (resolve base.config c.2.1 = some piaRegion ∧ c.2.1 = piaRegion.lo + (if c.1 = .a then 1 else 3)) ∧
      (resolve base.config c.2.2 = some piaRegion ∧ c.2.2 = piaRegion.lo + (if c.1 = .a then 0 else 2)) := by decide +kernel

/-- A rising edge, a write that leaves C2 high, one that lowers it, one that does not drive it, and the three other addresses. -/
theorem witness_RisingEdgeFeedsDecoder :
    (∃ t, memWrite8 0x0403 0x38 base = .ok () t ∧ base.portB.controlLine2 = false ∧ (0x38#8).getLsbD 5 = true ∧
      (0x38#8).getLsbD 4 = true ∧ (0x38#8).getLsbD 3 = true) ∧
    ([0x38#8, 0x30, 0x00].all fun v => succeeds (memWrite8 0x0403 v { base with portB := { Port.reset with controlLine2 := true } })) = true ∧
    ([0x30#8, 0x28, 0x18].all fun v => succeeds (memWrite8 0x0403 v base) && !(v.getLsbD 5 && v.getLsbD 4 && v.getLsbD 3)) = true ∧
    ([0x0400#16, 0x0401, 0x0402].all fun addr => succeeds (memWrite8 addr 0x38 base)) = true :=
  ⟨⟨_, rfl, by decide +kernel⟩, by decide +kernel⟩

theorem witness_CvsdAddBitFormula : Config.tc.cvsdFloat = .exact := rfl

/-- The bounds themselves are within the bounds. -/
theorem witness_CvsdStaysBounded : Config.tc.cvsdFloat = .exact ∧ cvsdLegal Config.tc ∧ cvsdInv Config.tc Cvsd.reset ∧
    cvsdInv Config.tc ⟨7, 1 / 2, 1⟩ ∧ cvsdInv Config.tc ⟨0, -1 / 2, -1⟩ := by decide +kernel

theorem witness_CvsdConstantStreamConverges : Config.tc.cvsdFloat = .exact ∧ cvsdLegal Config.tc ∧ cvsdInv Config.tc Cvsd.reset ∧
    1 - Config.tc.cvsdStateLeak < Config.tc.cvsdFMax / (2 - Config.tc.cvsdFilterLeak) ∧
    1 - Config.tc.cvsdStateLeak < -Config.tc.cvsdFMin / (2 - Config.tc.cvsdFilterLeak) := by decide +kernel

/-- The hypotheses of `computesInAcc` and `testsAcc`: an operand of every mode that is read, one of them from the PIA, and one
that faults. -/
theorem operand8_hypotheses : (∀ src ∈ [Src8.imm 0x00, .mem (.dir 0xFF), .mem (.idx 0x10), .mem (.ext 0x0400), .mem (.ext 0xFFFF)],
      succeeds (operand8 src base) = true) ∧ ∀ src ∈ [Src8.mem (.idx 0xE0), .mem (.ext 0x0100)], succeeds (operand8 src base) = false := by
  decide +kernel

theorem witness_AddSubtractCompareResults : (∃ m s1, operand8 (.mem (.idx 0x10)) base = .ok m s1) ∧
    ∃ e, operand8 (.mem (.ext 0x0100)) base = .fault e := ⟨ok_of (by decide +kernel), fault_of (by decide +kernel)⟩

theorem witness_LoadAndLogicResults : (∃ m s1, operand8 (.mem (.ext 0x0400)) base = .ok m s1) ∧
    ∃ e, operand8 (.mem (.ext 0x0100)) base = .fault e := ⟨ok_of (by decide +kernel), fault_of (by decide +kernel)⟩

/-- The hypotheses of `modifiesPlace` for one function: a byte of RAM and a register of the PIA that are read and written, a read
that faults, and a write that faults after its read. -/
def placeHypotheses (f : Byte → CC → Byte) : Prop :=
  (∃ v s1 s2, memRead8 (effAddr (.ext 0x0010) base) base = .ok v s1 ∧ memWrite8 (effAddr (.ext 0x0010) base) (f v base.cc) s1 = .ok () s2) ∧
  (∃ v s1 s2, memRead8 (effAddr (.ext 0x0400) base) base = .ok v s1 ∧ memWrite8 (effAddr (.ext 0x0400) base) (f v base.cc) s1 = .ok () s2) ∧
  (∃ e, memRead8 (effAddr (.ext 0x0100) base) base = .fault e) ∧
  (∃ v s1 e, memRead8 (effAddr (.ext 0xF800) base) base = .ok v s1 ∧
    memWrite8 (effAddr (.ext 0xF800) base) (f v base.cc) s1 = .fault e)

theorem placeHypotheses_hold (f : Byte → CC → Byte) : placeHypotheses f :=
  ⟨⟨_, _, _, rfl, rfl⟩, ⟨_, _, _, rfl, rfl⟩, ⟨_, rfl⟩, ⟨_, _, _, rfl, rfl⟩⟩

theorem witness_NegIncDecResults : placeHypotheses (fun v _ => 0 - v) ∧ placeHypotheses (fun v _ => BitVec.ofNat 8 (v.toNat + 1)) ∧
    placeHypotheses (fun v _ => BitVec.ofNat 8 (v.toNat + 255)) :=
  ⟨placeHypotheses_hold _, placeHypotheses_hold _, placeHypotheses_hold _⟩

theorem witness_ShiftAndRotateResults : placeHypotheses (fun v _ => BitVec.ofNat 8 (2 * v.toNat)) ∧
    placeHypotheses (fun v _ => BitVec.ofNat 8 (v.toNat / 2 + (if 128 ≤ v.toNat then 128 else 0))) ∧
    placeHypotheses (fun v _ => BitVec.ofNat 8 (v.toNat / 2)) ∧ placeHypotheses (fun v cc => BitVec.ofNat 8 (2 * v.toNat + cc.c.toNat)) ∧
    placeHypotheses (fun v cc => BitVec.ofNat 8 (v.toNat / 2 + 128 * cc.c.toNat)) :=
  ⟨placeHypotheses_hold _, placeHypotheses_hold _, placeHypotheses_hold _, placeHypotheses_hold _, placeHypotheses_hold _⟩

theorem witness_ComAndTstResults : placeHypotheses (fun v _ => BitVec.ofNat 8 (255 - v.toNat)) ∧
    (∃ v s1, memRead8 (effAddr (.idx 0x10) base) base = .ok v s1) ∧ ∃ e, memRead8 (effAddr (.ext 0x0404) base) base = .fault e :=
  ⟨placeHypotheses_hold _, ok_of (by decide +kernel), fault_of (by decide +kernel)⟩

/-- The least and the greatest operands. -/
theorem witness_DaaAfterAddIsDecimal : (99 < 100 ∧ (machine 0x99 0 0 0 0xD0).a.toNat = 16 * (99 / 10) + 99 % 10) ∧
    (0 < 100 ∧ (machine 0x00 0 0 0 0xD0).a.toNat = 16 * (0 / 10) + 0 % 10) := by decide +kernel

/-- Words of every mode, and words whose first or second byte is not there. -/
theorem operand16_hypotheses : (∀ src ∈ [Src16.imm 0xFFFF, .mem (.dir 0x20), .mem (.idx 0x01), .mem (.ext 0xFFFF), .mem (.ext 0x0400)],
      succeeds (operand16 src base) = true) ∧ ∀ src ∈ [Src16.mem (.dir 0xFF), .mem (.ext 0x0100)], succeeds (operand16 src base) = false := by
  decide +kernel

theorem witness_CpxResult : (∃ m s1, operand16 (.mem (.dir 0x20)) base = .ok m s1) ∧ ∃ e, operand16 (.mem (.dir 0xFF)) base = .fault e :=
  ⟨ok_of (by decide +kernel), fault_of (by decide +kernel)⟩

theorem witness_WordLoadResults : (∃ m s1, operand16 (.mem (.ext 0xFFFF)) base = .ok m s1) ∧
    ∃ e, operand16 (.mem (.ext 0x0100)) base = .fault e := ⟨ok_of (by decide +kernel), fault_of (by decide +kernel)⟩

theorem witness_BranchesAfterCompare : (∃ m s1 t, operand8 (.mem (.dir 0x10)) base = .ok m s1 ∧
      exec (Instr.cmpOf .b (.mem (.dir 0x10))) base = .next t) ∧
    (∃ m s1 t, operand8 (.imm 0x80) base = .ok m s1 ∧ exec (Instr.subOf .a (.imm 0x80)) base = .next t) ∧
    (∃ t, exec .cba base = .next t) ∧ ∃ t, exec .sba base = .next t :=
  ⟨⟨_, _, _, rfl, rfl⟩, ⟨_, _, _, rfl, rfl⟩, ⟨_, rfl⟩, ⟨_, rfl⟩⟩

/-- A stack in RAM, one in the PIA's window, and one whose second byte falls on ROM. -/
theorem witness_CallResults : (storable base base.sp ∧ storable base (base.sp - 1)) ∧
    (∃ t, push16 base.pc { base with sp := 0x0403 } = .ok () t) ∧ (∃ e, push16 base.pc { base with sp := 0x0000 } = .fault e) ∧
    ∃ e, push16 base.pc { base with sp := 0x0100 } = .fault e :=
  ⟨⟨storable_of (by decide +kernel), storable_of (by decide +kernel)⟩, ⟨_, rfl⟩, fault_of (by decide +kernel), fault_of (by decide +kernel)⟩

/-- A return address in RAM, one across the top of the address space, and one that is not there. -/
theorem witness_JumpAndReturnResults : ([0x1F#16, 0xFFFE].all fun sp =>
      (peek (sp + 1) { base with sp := sp }).isSome && (peek (sp + 2) { base with sp := sp }).isSome) = true ∧
    succeeds (pull16 { base with sp := 0x0401 }) = true ∧ succeeds (pull16 { base with sp := 0x00FE }) = false := by decide +kernel

theorem witness_StaResults : storable base (effAddr (.dir 0xFF) base) ∧ (∃ t, memWrite8 (effAddr (.ext 0x0400) base) 0x45 base = .ok () t) ∧
    ∃ e, memWrite8 (effAddr (.ext 0xF000) base) 0x45 base = .fault e :=
  ⟨storable_of (by decide +kernel), ⟨_, rfl⟩, fault_of (by decide +kernel)⟩

theorem witness_WordStoreResults : (storable base (effAddr (.dir 0xFE) base) ∧ storable base (effAddr (.dir 0xFE) base + 1)) ∧
    (∃ t, memWrite16 (effAddr (.ext 0x0400) base) 0xBEEF base = .ok () t) ∧
    ∃ e, memWrite16 (effAddr (.dir 0xFF) base) 0xBEEF base = .fault e :=
  ⟨⟨storable_of (by decide +kernel), storable_of (by decide +kernel)⟩, ⟨_, rfl⟩, fault_of (by decide +kernel)⟩

theorem witness_PushPullResults : storable base base.sp ∧ (∃ t, memWrite8 0x0400 0x45 { base with sp := 0x0400 } = .ok () t) ∧
    (∃ e, memWrite8 0xF000 0x45 { base with sp := 0xF000 } = .fault e) ∧ peek (0xFFFF + 1) { base with sp := 0xFFFF } = some 0x00 ∧
    (∃ v t, memRead8 (0x03FF + 1) { base with sp := 0x03FF } = .ok v t) ∧ ∃ e, memRead8 (0x00FF + 1) base = .fault e :=
  ⟨storable_of (by decide +kernel), ⟨_, rfl⟩, fault_of (by decide +kernel), by decide +kernel, ok_of (by decide +kernel),
    fault_of (by decide +kernel)⟩

/-- A machine whose CLR does not read its operand. -/
def noReadMachine : State := { base with config := { base.config with clrReadsOperand := false } }

/-- RAM, the PIA and ROM, with the read and without it, and a read that faults. -/
theorem witness_ClrResults : storable base (effAddr (.ext 0x0010) base) ∧
    (base.config.clrReadsOperand = true ∧ ∃ e, memRead8 (effAddr (.ext 0x0100) base) base = .fault e) ∧
    (∃ v s1 t, memRead8 (effAddr (.ext 0x0400) base) base = .ok v s1 ∧ memWrite8 (effAddr (.ext 0x0400) base) 0 s1 = .ok () t) ∧
    (∃ v s1 e, memRead8 (effAddr (.ext 0xF800) base) base = .ok v s1 ∧ memWrite8 (effAddr (.ext 0xF800) base) 0 s1 = .fault e) ∧
    (noReadMachine.config.clrReadsOperand = false ∧ (∃ t, memWrite8 (effAddr (.ext 0x0400) noReadMachine) 0 noReadMachine = .ok () t) ∧
      ∃ e, memWrite8 (effAddr (.ext 0x0100) noReadMachine) 0 noReadMachine = .fault e) :=
  ⟨storable_of (by decide +kernel), ⟨rfl, _, rfl⟩, ⟨_, _, _, rfl, rfl⟩, ⟨_, _, _, rfl, rfl⟩, rfl, ⟨_, rfl⟩, ⟨_, rfl⟩⟩

theorem witness_SwiEntry : (frameStorable base ∧ readable base 0xFFFA ∧ readable base 0xFFFB) ∧
    [entryOutcome 0xFFFA { piaAboveRam with sp := 0x0103 }, entryOutcome 0xFFFA { base with sp := 0x0005 },
      entryOutcome 0xFFFA (romEndsAt 0xFFFA)] = [(true, true), (false, false), (true, false)] :=
  ⟨⟨frameStorable_of (by decide +kernel), by decide +kernel, by decide +kernel⟩, by decide +kernel⟩

theorem witness_WaiResult : (base.config.waiMode = .motorola ∧ frameStorable base) ∧
    [base, { piaAboveRam with sp := 0x0103 }, { base with sp := 0x0005 }].map (fun s =>
      (decide (s.config.waiMode = .motorola), succeeds (busWrites (frameWrites s) s))) = [(true, true), (true, true), (true, false)] ∧
    { base with config := { base.config with waiMode := .fault } }.config.waiMode = .fault :=
  ⟨⟨rfl, frameStorable_of (by decide +kernel)⟩, by decide +kernel, rfl⟩

/-- The addresses RTI pulls from. -/
def pulledFrom (sp : Word) : List Word := [sp + 1, sp + 2, sp + 3, sp + 4, sp + 5, sp + 6, sp + 7]

/-- A frame at the top of RAM, one that begins at the top of the address space, one that reaches into the window, and one whose
first and one whose last byte is not there. -/
theorem witness_RtiResult : ([0xF8#16, 0xFFFE].all fun sp => (pulledFrom sp).all fun a => (peek a { base with sp := sp }).isSome) = true ∧
    succeeds (busReads (pulledFrom 0xFC) { piaAboveRam with sp := 0xFC }) = true ∧
    [0xFF#16, 0xF9].map (fun sp => succeeds (busReads (pulledFrom sp) { base with sp := sp })) = [false, false] := by decide +kernel

/-- A handler that changes A, B, X, PC and the flags. -/
def handled (t : State) : State := { t with a := 0x99, b := 0, x := 0, pc := 0, cc := CC.ofByte 0xFF }

/-- The frame stacked by SWI, by WAI, by an NMI and by an IRQ; the handler has changed every register but SP. -/
theorem witness_ReturnUndoesInterrupt : ∀ o ∈ [(base, exec .swi base), (base, exec .wai base), (nmiOf base, step (nmiOf base)),
      (irqOf .a base, step (irqOf .a base))],
    frameStorable o.1 ∧ ∃ t, o.2 = .next t ∧ (handled t).sp = t.sp ∧ (∀ c ∈ frameBytes o.1, peek c.1 (handled t) = peek c.1 t) ∧
      (handled t).a ≠ o.1.a ∧ (handled t).cc ≠ o.1.cc := by
  have key : ∀ (s : State) (o : Host.Outcome State Fault Refusal), (frameBytes s).all (fun c => isRam s c.1) = true →
      (view (fun _ => ()) o).isSome = true → (0x99#8) ≠ s.a → CC.ofByte 0xFF ≠ s.cc →
      frameStorable s ∧ ∃ t, o = .next t ∧ (handled t).sp = t.sp ∧ (∀ c ∈ frameBytes s, peek c.1 (handled t) = peek c.1 t) ∧
        (handled t).a ≠ s.a ∧ (handled t).cc ≠ s.cc := by
    intro s o hs ho h1 h2
    obtain ⟨t, ht⟩ := next_of ho
    exact ⟨frameStorable_of hs, t, ht, rfl, fun c _ => Laws.peek_congr rfl rfl c.1, h1, h2⟩
  simp only [List.forall_mem_cons, List.not_mem_nil, false_imp_iff, implies_true, and_true]
  refine ⟨key _ _ ?_ ?_ ?_ ?_, key _ _ ?_ ?_ ?_ ?_, key _ _ ?_ ?_ ?_ ?_, key _ _ ?_ ?_ ?_ ?_⟩ <;> decide +kernel

/-- The hypotheses of `EveryInstructionCompletes`, as a check. -/
def completes (i : Instr) (s : State) : Bool :=
  i.valid && decide (i = .wai → s.config.waiMode = .motorola) && (storedAddrs i s).all (isRam s) &&
    (loadedAddrs i s).all fun a => (peek a s).isSome

theorem completes_sound {i : Instr} {s : State} (h : completes i s = true) : i.WellFormed ∧ (i = .wai → s.config.waiMode = .motorola) ∧
    (∀ a ∈ storedAddrs i s, storable s a) ∧ ∀ a ∈ loadedAddrs i s, readable s a := by
  simp only [completes, Bool.and_eq_true, decide_eq_true_eq, List.all_eq_true] at h
  exact ⟨h.1.1.1, h.1.1.2, fun a ha => storable_of (h.1.2 a ha), h.2⟩

/-- One instruction of every kind of access: none, a load, a store, both, the stack both ways, the vector. -/
theorem witness_EveryInstructionCompletes : ([Instr.nop, .ldaa (.mem (.ext 0xFFFF)), .stx (.dir 0xFE), .inc (.idx 0x10), .bsr 0x80, .pula,
      .rts, .swi, .rti, .wai].all fun i => completes i { base with sp := if i = .pula ∨ i = .rts ∨ i = .rti then 0x1F else 0xFF }) = true := by
  decide +kernel

/-- One fault of each of the three kinds. -/
theorem witness_StopsAreNamedFaults : faultOf (exec (.ldaa (.mem (.ext 0x2000))) base) = some (.busFault 0x2000 .readUnmapped) ∧
    faultOf (exec .illegal00 { base with pc := 0xF001 }) = some (.illegalOpcode 0x00 0xF000) ∧
    faultOf (exec .wai { base with pc := 0xF001, config := { base.config with waiMode := .fault } }) =
      some (.unimplementedOpcode 0x3E 0xF000) := by decide +kernel

/-- For each flag an instruction that keeps it. -/
theorem witness_FlagFrame : (∃ t, exec (.suba (.imm 1)) base = .next t) ∧ (flagsWritten (.suba (.imm 1))).h = false ∧
    (flagsWritten (.suba (.imm 1))).i = false ∧ (∃ t, exec .inx base = .next t) ∧ (flagsWritten .inx).n = false ∧
    (flagsWritten .inx).v = false ∧ (flagsWritten .inx).c = false ∧ (∃ t, exec .sec base = .next t) ∧ (flagsWritten .sec).z = false :=
  ⟨⟨_, rfl⟩, rfl, rfl, ⟨_, rfl⟩, rfl, rfl, rfl, ⟨_, rfl⟩, rfl⟩

/-- For each register an instruction that keeps it; NOP keeps them all. -/
theorem witness_RegisterFrame : (∃ t, exec .nop base = .next t) ∧ regsWritten .nop = ⟨false, false, false, false⟩ ∧
    transfersControl .nop = false ∧ Instr.nop ≠ .wai ∧ Instr.nop ≠ .daa ∧ (∃ t, exec .wai base = .next t) ∧ (∃ t, exec .daa base = .next t) :=
  ⟨⟨_, rfl⟩, rfl, rfl, (nomatch ·), (nomatch ·), next_of (by decide +kernel), ⟨_, rfl⟩⟩

/-- Bytes beside the ones stored, for a store and for a call, and a form that stores nothing. -/
theorem witness_MemoryFrame : (∃ t, exec (.staa (.dir 0x10)) base = .next t) ∧ 0x11#16 ∉ storedAddrs (.staa (.dir 0x10)) base ∧
    (∃ t, exec (.bsr 0x10) base = .next t) ∧ 0xFD#16 ∉ storedAddrs (.bsr 0x10) base ∧
    (∃ t, exec (.cmpa (.mem (.dir 0x10))) base = .next t) ∧ 0x10#16 ∉ storedAddrs (.cmpa (.mem (.dir 0x10))) base :=
  ⟨next_of (by decide +kernel), by decide +kernel, next_of (by decide +kernel), by decide +kernel, next_of (by decide +kernel),
    by decide +kernel⟩

theorem notInWindow_of {s : State} {l : List Word}
    (h : (l.all fun a => decide ((resolve s.config a).map (·.owner) ≠ some .pia)) = true) : ∀ a ∈ l, ¬ inWindow s a := by
  rintro a ha ⟨r, hr, ho⟩
  exact of_decide_eq_true (List.all_eq_true.mp h a ha) (by rw [hr, ← ho]; rfl)

/-- An instruction that touches RAM only, and one that reads the window and stores nothing. -/
theorem witness_DeviceFrame : (∃ t, exec (.inc (.ext 0x10)) base = .next t) ∧
    (∀ a ∈ storedAddrs (.inc (.ext 0x10)) base ++ loadedAddrs (.inc (.ext 0x10)) base, ¬ inWindow base a) ∧
    (∃ t, exec (.ldaa (.mem (.ext 0x0400))) base = .next t) ∧ (∀ a ∈ storedAddrs (.ldaa (.mem (.ext 0x0400))) base, ¬ inWindow base a) ∧
    inWindow base 0x0400 :=
  ⟨next_of (by decide +kernel), notInWindow_of (by decide +kernel), next_of (by decide +kernel),
    notInWindow_of (by decide +kernel), piaRegion, by decide +kernel, rfl⟩

theorem memInv_of {c : Config} {m : Memory} (hw : m.wf)
    (h : m.all (fun cell => decide (cell.1 < 65536) && decide ((resolve c (BitVec.ofNat 16 cell.1)).map (·.owner) = some .ram)) = true) :
    memInv c m := by
  refine ⟨hw, fun cell hc => ⟨BitVec.ofNat 16 cell.1, ?_, ?_⟩⟩
  · have := List.all_eq_true.mp h cell hc
    simp only [Bool.and_eq_true, decide_eq_true_eq] at this
    rw [BitVec.toNat_ofNat]
    exact Nat.mod_eq_of_lt this.1
  · have := List.all_eq_true.mp h cell hc
    simp only [Bool.and_eq_true, decide_eq_true_eq, Option.map_eq_some_iff] at this
    exact this.2

theorem base_inv : machineInv base :=
  ⟨by decide +kernel, memInv_of (by decide +kernel) (by decide +kernel), by decide +kernel, by decide +kernel, (fun _ => rfl), fun _ => by decide +kernel⟩

/-- A step from a state with something in RAM. -/
theorem witness_StepKeepsInvariant : ∃ t, machineInv (place [0x97, 0x00] 0xF000 base) ∧ step (place [0x97, 0x00] 0xF000 base) = .next t := by
  obtain ⟨t, ht⟩ := next_of (o := step (place [0x97, 0x00] 0xF000 base)) (by decide +kernel)
  exact ⟨t, ⟨by decide +kernel, memInv_of (by decide +kernel) (by decide +kernel), by decide +kernel, by decide +kernel, (fun _ => by decide +kernel),
    fun _ => by decide +kernel⟩, ht⟩

/-- All four host operations, the reset with RAM contents drawn. -/
theorem witness_HostRunsKeepInvariant : machineInv base ∧
    ∀ op ∈ [HostOp.step, .drivePort .b 0xFF, .assertNmi, .reset draw], hostOpLegal base.config op := by
  refine ⟨base_inv, ?_⟩
  simp only [List.mem_cons, List.not_mem_nil, or_false, forall_eq_or_imp, forall_eq]
  exact ⟨trivial, trivial, trivial, memInv_of (by decide +kernel) (by decide +kernel)⟩

end Sys2Proof.Tests
end

namespace Sys2Proof.Proofs

open Sys2Proof.Machine Sys2Proof.Safety Sys2Proof.Laws

/-! ## The shapes of instructions

`exec_shape` is the one case split over the instructions: it says what operation of the machine each meaning is, with the addresses
the operation stores to and reads from. -/

/-- `u` is `s` but for A, B, X, SP, PC, the flags and the count of free values. -/
def SameOutside (s u : State) : Prop :=
  u = { s with a := u.a, b := u.b, x := u.x, sp := u.sp, pc := u.pc, cc := u.cc, draws := u.draws }

/-- An operation of the machine followed by a change of registers that depends on its value. -/
def thenRegs {α : Type} (r : Res α) (k : α → State → State) : Host.Outcome State Fault Refusal :=
  (r.bind fun v t => .ok () (k v t)).outcome

/-- The outcome is that of one of the machine's operations in `s`, which stores to the first list of addresses and reads data
at the second (files 40 to 45). -/
inductive ExecShape (s : State) : List Word → List Word → Host.Outcome State Fault Refusal → Prop
  | illegal (op : Byte) : ExecShape s [] [] (illegalOpcode op s).outcome
  | registers {t : State} (h : SameOutside s t) : ExecShape s [] [] (.next t)
  | accOperand (f : Byte → Byte → CC → Alu) (r : Acc) (src : Src8) :
      ExecShape s [] (src8Reads src s) (accOperand f r src s).outcome
  | accTest (f : Byte → Byte → CC → CC) (r : Acc) (src : Src8) :
      ExecShape s [] (src8Reads src s) (accTest f r src s).outcome
  | accModify (f : Byte → CC → Alu) (r : Acc) : ExecShape s [] [] (accModify f r s).outcome
  | memModify (f : Byte → CC → Alu) (ea : IdxExt) :
      ExecShape s [effAddr ea.toMem s] [effAddr ea.toMem s] (memModify f ea s).outcome
  | clear (ea : IdxExt) : ExecShape s [effAddr ea.toMem s] [effAddr ea.toMem s] (execClr ea s)
  | load8 {k : Byte → State → State} (addr : Word) (hk : ∀ v t, SameOutside t (k v t)) :
      ExecShape s [] [addr] (thenRegs (memRead8 addr s) k)
  | load16 {k : Word → State → State} (src : Src16) (hk : ∀ v t, SameOutside t (k v t)) :
      ExecShape s [] (src16Reads src s) (thenRegs (operand16 src s) k)
  | store8 {k : Unit → State → State} (addr : Word) (v : Byte) (hk : ∀ u t, SameOutside t (k u t)) :
      ExecShape s [addr] [] (thenRegs (memWrite8 addr v s) k)
  | store16 {k : Unit → State → State} (addr v : Word) (hk : ∀ u t, SameOutside t (k u t)) :
      ExecShape s [addr, addr + 1] [] (thenRegs (memWrite16 addr v s) k)
  | branch (cond : Cond) (rel : Byte) : ExecShape s [] [] (branch cond rel s).outcome
  | call (target : Word) : ExecShape s [s.sp, s.sp - 1] [] (call target s).outcome
  | push (v : Byte) : ExecShape s [s.sp] [] (push8 v s).outcome
  | pull {k : Byte → State → State} (hk : ∀ v t, SameOutside t (k v t)) :
      ExecShape s [] [s.sp + 1] (thenRegs (pull8 s) k)
  | pullWord {k : Word → State → State} (hk : ∀ v t, SameOutside t (k v t)) :
      ExecShape s [] [s.sp + 1, s.sp + 2] (thenRegs (pull16 s) k)
  | interrupt (vector : Word) :
      ExecShape s [s.sp, s.sp - 1, s.sp - 2, s.sp - 3, s.sp - 4, s.sp - 5, s.sp - 6] [vector, vector + 1]
        (enter vector true s).outcome
  | returnFromInterrupt :
      ExecShape s [] [s.sp + 1, s.sp + 2, s.sp + 3, s.sp + 4, s.sp + 5, s.sp + 6, s.sp + 7] (returnFromInterrupt s).outcome
  | wait : ExecShape s [s.sp, s.sp - 1, s.sp - 2, s.sp - 3, s.sp - 4, s.sp - 5, s.sp - 6] [] (execWai s)

/-- The meaning of every instruction has one of the shapes, with the addresses the instruction stores to and reads from. -/
theorem exec_shape (i : Instr) (s : State) : ExecShape s (storedAddrs i s) (loadedAddrs i s) (exec i s) := by
  cases i with
  | adda _ | addb _ | adca _ | adcb _ | suba _ | subb _ | sbca _ | sbcb _ | anda _ | andb _ | oraa _ | orab _ | eora _ | eorb _
  | ldaa _ | ldab _ => exact .accOperand _ _ _
  | cmpa _ | cmpb _ | bita _ | bitb _ => exact .accTest _ _ _
  | nega | negb | inca | incb | deca | decb | coma | comb | asla | aslb | asra | asrb | lsra | lsrb | rola | rolb | rora | rorb =>
    exact .accModify _ _
  | neg _ | inc _ | dec _ | com _ | asl _ | asr _ | lsr _ | rol _ | ror _ => exact .memModify _ _
  | clr _ => exact .clear _
  | tst _ => exact .load8 _ fun _ _ => rfl
  | ldx _ | lds _ | cpx _ => exact .load16 _ fun _ _ => rfl
  | staa _ | stab _ => exact .store8 _ _ fun _ _ => rfl
  | stx _ | sts _ => exact .store16 _ _ fun _ _ => rfl
  | bra rel => exact .branch .always rel
  | bhi _ | bls _ | bcc _ | bcs _ | bne _ | beq _ | bvc _ | bvs _ | bpl _ | bmi _ | bge _ | blt _ | bgt _ | ble _ =>
    exact .branch _ _
  | bsr _ | jsr _ => exact .call _
  | psha | pshb => exact .push _
  | pula | pulb => exact .pull fun _ _ => rfl
  | rts => exact .pullWord fun _ _ => rfl
  | swi => exact .interrupt _
  | rti => exact .returnFromInterrupt
  | wai => exact .wait
  | aba | sba | cba | inx | dex | ins | des | daa | jmp _ | tab | tba | tsx | txs | tsta | tstb | clra | clrb | clc | sec | clv | sev
  | cli | sei | tap | tpa | nop => exact .registers rfl
  | illegal00 | illegal02 | illegal03 | illegal04 | illegal05 | illegal12 | illegal13 | illegal14 | illegal15 | illegal18 | illegal1A
  | illegal1C | illegal1D | illegal1E | illegal1F | illegal21 | illegal38 | illegal3A | illegal3C | illegal3D | illegal41 | illegal42
  | illegal45 | illegal4B | illegal4E | illegal51 | illegal52 | illegal55 | illegal5B | illegal5E | illegal61 | illegal62 | illegal65
  | illegal6B | illegal71 | illegal72 | illegal75 | illegal7B | illegal83 | illegal87 | illegal8F | illegal93 | illegal9D | illegalA3
  | illegalB3 | illegalC3 | illegalC7 | illegalCC | illegalCD | illegalCF | illegalD3 | illegalDC | illegalDD | illegalE3 | illegalEC
  | illegalED | illegalF3 | illegalFC | illegalFD => exact .illegal _

/-- An operation followed by a change of registers goes on exactly when the operation succeeds. -/
theorem thenRegs_eq_next {α : Type} {r : Res α} {k : α → State → State} {t : State} :
    thenRegs r k = .next t ↔ ∃ v u, r = .ok v u ∧ k v u = t := by
  unfold thenRegs
  rw [outcome_eq_next, bind_eq_ok]
  simp

/-! ## The effect of an instruction -/

/-- A change of registers after an effect adds nothing to it. -/
theorem effect_sameOutside {s t u : State} {st ld : List Word} (h : Effect s t st ld) (hu : SameOutside t u) : Effect s u st ld := by
  rw [hu]; exact h.regs rfl rfl rfl rfl rfl rfl rfl

theorem effect_thenRegs {α : Type} {r : Res α} {k : α → State → State} {s t : State} {st ld : List Word}
    (hr : ∀ v u, r = .ok v u → Effect s u st ld) (hk : ∀ v u, SameOutside u (k v u)) (h : thenRegs r k = .next t) :
    Effect s t st ld := by
  obtain ⟨v, u, h1, rfl⟩ := thenRegs_eq_next.1 h
  exact effect_sameOutside (hr v u h1) (hk v u)

/-- CLR of memory is one write of 0 at its address, after a read there if the configuration asks for one (R196). -/
theorem execClr_cases {ea : IdxExt} {s t : State} (h : execClr ea s = .next t) :
    ∃ s1 s2, (s1 = s ∨ ∃ v, memRead8 (effAddr ea.toMem s) s = .ok v s1) ∧
      memWrite8 (effAddr ea.toMem s) 0 s1 = .ok () s2 ∧ t = s2.setCc (clrFlags s2.cc) := by
  obtain ⟨_, s2, h2, h3⟩ := bind_eq_ok.1 (outcome_eq_next.1 h)
  obtain rfl := (Res.ok.inj h3).2
  split at h2
  · obtain ⟨v, s1, hr, hw⟩ := bind_eq_ok.1 h2
    exact ⟨s1, s2, .inr ⟨v, hr⟩, hw, rfl⟩
  · exact ⟨s, s2, .inl rfl, h2, rfl⟩

theorem effect_execClr {ea : IdxExt} {s t : State} (h : execClr ea s = .next t) :
    Effect s t [effAddr ea.toMem s] [effAddr ea.toMem s] := by
  obtain ⟨s1, s2, hr, hw, rfl⟩ := execClr_cases h
  have read : Effect s s1 [] [effAddr ea.toMem s] := by
    rcases hr with rfl | ⟨v, hr⟩
    · exact (Effect.refl _).sub (by simp) (by simp)
    · exact effect_memRead8 hr
  exact effect_sameOutside (read.trans (effect_memWrite8 hw)) rfl

theorem effect_enter {vector : Word} {s t : State} {u : Unit} (h : enter vector true s = .ok u t) :
    Effect s t [s.sp, s.sp - 1, s.sp - 2, s.sp - 3, s.sp - 4, s.sp - 5, s.sp - 6] [vector, vector + 1] := by
  obtain ⟨_, s1, h1, h2⟩ := bind_eq_ok.1 h
  exact (effect_stackAll h1).trans (effect_vectorTo h2)

/-- WAI goes on only in the mode that has a wait; it stacks the registers and waits (R211). -/
theorem execWai_cases {s t : State} (h : execWai s = .next t) :
    s.config.waiMode = .motorola ∧ ∃ s1, stackAll s = .ok () s1 ∧ t = s1.setWaiWait true := by
  unfold execWai at h
  split at h
  next hm =>
    obtain ⟨_, s1, h1, h2⟩ := bind_eq_ok.1 (outcome_eq_next.1 h)
    exact ⟨hm, s1, h1, (Res.ok.inj h2).2.symm⟩
  · exact nomatch h

/-- What an operation of a shape reaches outside the registers. -/
theorem ExecShape.effect {s t : State} {st ld : List Word} {o : Host.Outcome State Fault Refusal} (hs : ExecShape s st ld o)
    (h : o = .next t) : Effect s t st ld := by
  cases hs with
  | illegal op => exact nomatch h
  | registers hr =>
    obtain rfl := Host.Outcome.next.inj h
    exact effect_sameOutside (Effect.refl s) hr
  | accOperand f r src => exact effect_accOperand h
  | accTest f r src => exact effect_accTest h
  | accModify f r => exact effect_accModify h
  | memModify f ea => exact effect_memModify h
  | clear ea => exact effect_execClr h
  | load8 addr hk => exact effect_thenRegs (fun _ _ => effect_memRead8) hk h
  | load16 src hk => exact effect_thenRegs (fun _ _ => effect_operand16) hk h
  | store8 addr v hk => exact effect_thenRegs (fun _ _ => effect_memWrite8) hk h
  | store16 addr v hk => exact effect_thenRegs (fun _ _ => effect_memWrite16) hk h
  | branch cond rel => exact effect_branch h
  | call target => exact effect_call h
  | push v => exact effect_push8 (outcome_eq_next.1 h)
  | pull hk => exact effect_thenRegs (fun _ _ => effect_pull8) hk h
  | pullWord hk => exact effect_thenRegs (fun _ _ => effect_pull16) hk h
  | interrupt vector => exact effect_enter (outcome_eq_next.1 h)
  | returnFromInterrupt => exact effect_returnFromInterrupt (outcome_eq_next.1 h)
  | wait =>
    obtain ⟨-, s1, h1, rfl⟩ := execWai_cases h
    exact (effect_stackAll h1).regs rfl rfl rfl rfl rfl rfl rfl

/-- What an instruction reaches outside the registers, by the addresses it stores to and reads from. -/
theorem exec_effect {i : Instr} {s t : State} (h : exec i s = .next t) : Effect s t (storedAddrs i s) (loadedAddrs i s) :=
  (exec_shape i s).effect h

/-- Settles O57: the two clauses are those of the instruction's effect, an acknowledged port being the one R240 leaves. -/
theorem deviceFrame : Obligations.DeviceFrame := by
  unfold Obligations.DeviceFrame
  intro i s t h
  exact ⟨(exec_effect h).devices, (exec_effect h).passive⟩

/-! ## The invariant of the devices and of RAM -/

/-! The decoder. -/

/-- A number within bounds on both sides of zero, scaled by a factor from 0 to 1, stays within them. -/
theorem scaled_within {lo hi q k : Rat} (hlo : lo ≤ 0) (hhi : 0 ≤ hi) (h : lo ≤ q ∧ q ≤ hi) (hk : 0 ≤ k ∧ k ≤ 1) :
    lo ≤ q * k ∧ q * k ≤ hi := by
  obtain ⟨h1, h2⟩ := h
  obtain ⟨k0, k1⟩ := hk
  constructor
  · calc lo ≤ lo * k := by nlinarith
      _ ≤ q * k := mul_le_mul_of_nonneg_right h1 k0
  · calc q * k ≤ hi * k := mul_le_mul_of_nonneg_right h2 k0
      _ ≤ hi := by nlinarith

/-- In exact arithmetic the nudge is the midpoint of the filter and the bound (R250). -/
theorem nudge_exact (filter bound : Rat) : nudge .exact filter bound = (filter + bound) / 2 := by
  show filter + (bound - filter) / 2 = _
  ring

/-- A run of equal bits moves the filter to a point within its bounds (R250). -/
theorem filterNudged_within {c : Config} (hx : c.cvsdFloat = .exact) (shift : BitVec 3) {filter : Rat}
    (h : c.cvsdFMin ≤ filter ∧ filter ≤ c.cvsdFMax) :
    c.cvsdFMin ≤ filterNudged c shift filter ∧ filterNudged c shift filter ≤ c.cvsdFMax := by
  obtain ⟨h1, h2⟩ := h
  unfold filterNudged
  rw [hx, nudge_exact, nudge_exact]
  split
  · constructor <;> linarith
  · split
    · constructor <;> linarith
    · exact ⟨h1, h2⟩

theorem clampUnit_within (q : Rat) : -1 ≤ clampUnit q ∧ clampUnit q ≤ 1 := by
  rw [clampUnit_eq]
  exact ⟨le_min (by norm_num) (le_max_left _ _), min_le_left _ _⟩

/-- In exact arithmetic every bit keeps the bounds of R251. -/
theorem cvsdAddBit_within {c : Config} (hl : cvsdLegal c) (hx : c.cvsdFloat = .exact) (bit : Bool) {d : Cvsd} (h : cvsdInv c d) :
    cvsdInv c (cvsdAddBit c bit d) := by
  obtain ⟨hmin, hmax, hf0, hf1, hs0, hs1⟩ := hl
  obtain ⟨-, -, hlo, hhi⟩ := h
  have hfilter := scaled_within hmin.le hmax.le
    (filterNudged_within hx ((d.shiftRegister <<< 1) ||| (BitVec.ofBool bit).setWidth 3) ⟨hlo, hhi⟩) ⟨hf0, hf1.le⟩
  have hstate := fun q => scaled_within (by norm_num) (by norm_num) (clampUnit_within q) ⟨hs0.le, hs1⟩
  unfold cvsdAddBit
  rw [hx]
  exact ⟨(hstate _).1, (hstate _).2, hfilter.1, hfilter.2⟩

theorem cvsdInv_reset {c : Config} (hl : cvsdLegal c) : cvsdInv c Cvsd.reset := by
  obtain ⟨hmin, hmax, -⟩ := hl
  exact ⟨by norm_num [Cvsd.reset], by norm_num [Cvsd.reset], hmin.le, hmax.le⟩

/-! The ports. -/

theorem portInv_reset : portInv Port.reset := by decide

/-- A data-register read clears both flags and the latch (R240). -/
theorem portInv_acknowledge {q : Port} (h : portInv q) : portInv (portAcknowledge q) := by
  obtain ⟨-, -, hc1⟩ := h
  exact ⟨by simp [portAcknowledge], by simp [portAcknowledge], hc1⟩

/-- A control-register write keeps both flags (R242). -/
theorem portInv_control {q : Port} (v : Byte) (h : portInv q) : portInv (portControl q v) := by
  unfold portInv
  rw [portControl_bit, portControl_bit]
  exact h

/-- A driven port has flag bit 7 and the latch set (R245). -/
theorem portInv_drive {q : Port} (v : Byte) (h : portInv q) :
    portInv { q with inputLatch := v, controlRegister := q.controlRegister ||| 0x80, irqLatched := true } := by
  obtain ⟨-, h6, hc1⟩ := h
  exact ⟨by simp, by simpa using h6, hc1⟩

/-! RAM. -/

/-- A write to an address of RAM keeps the canonical form and the extent of RAM. -/
theorem memInv_write {c : Config} {m : Memory} (h : memInv c m) {addr : Word} {r : Region} (hr : resolve c addr = some r)
    (ho : r.owner = .ram) (v : Byte) : memInv c (m.write addr.toNat v) := by
  obtain ⟨hwf, hram⟩ := h
  refine ⟨memory_write_wf m _ v hwf, fun cell hc => ?_⟩
  rcases memory_mem_write m _ v cell hc with ⟨rfl, -⟩ | hc
  · exact ⟨addr, rfl, r, hr, ho⟩
  · exact hram cell hc

/-! The machine. -/

/-- The invariant of a machine of configuration `c`. -/
structure InvariantIn (c : Config) (s : State) : Prop where
  config : s.config = c
  legal : configLegal c
  mem : memInv c s.mem
  ports : ∀ p, portInv (s.port p)
  wait : s.waiWait = true → c.waiMode = .motorola
  decoder : c.cvsdFloat = .exact → cvsdInv c s.cvsd

theorem invariantIn_iff {c : Config} {s : State} : InvariantIn c s ↔ machineInv s ∧ s.config = c := by
  constructor
  · rintro ⟨rfl, hl, hm, hp, hw, hd⟩
    exact ⟨⟨hl, hm, hp .a, hp .b, hw, hd⟩, rfl⟩
  · rintro ⟨⟨hl, hm, ha, hb, hw, hd⟩, rfl⟩
    refine ⟨rfl, hl, hm, fun p => ?_, hw, hd⟩
    cases p
    · exact ha
    · exact hb

section
variable {c : Config} {s : State}

theorem InvariantIn.sameOutside (h : InvariantIn c s) {u : State} (hu : SameOutside s u) : InvariantIn c u := by
  rw [hu]
  exact ⟨h.config, h.legal, h.mem, h.ports, h.wait, h.decoder⟩

theorem InvariantIn.setPort (h : InvariantIn c s) (p : PortId) {q : Port} (hq : portInv q) : InvariantIn c (s.setPort p q) where
  config := by simpa using h.config
  legal := h.legal
  mem := by simpa using h.mem
  ports p' := by
    by_cases hp : p' = p
    · subst hp; rwa [setPort_port]
    · rw [setPort_port_other s p p' q hp]; exact h.ports p'
  wait := by simpa using h.wait
  decoder := by simpa using h.decoder

theorem InvariantIn.setCvsd (h : InvariantIn c s) {d : Cvsd} (hd : c.cvsdFloat = .exact → cvsdInv c d) :
    InvariantIn c (s.setCvsd d) :=
  ⟨h.config, h.legal, h.mem, h.ports, h.wait, hd⟩

theorem InvariantIn.setMem (h : InvariantIn c s) {m : Memory} (hm : memInv c m) : InvariantIn c (s.setMem m) :=
  ⟨h.config, h.legal, hm, h.ports, h.wait, h.decoder⟩

theorem InvariantIn.setWaiWait (h : InvariantIn c s) {w : Bool} (hw : w = true → c.waiMode = .motorola) :
    InvariantIn c (s.setWaiWait w) :=
  ⟨h.config, h.legal, h.mem, h.ports, hw, h.decoder⟩

theorem InvariantIn.setNmiPending (h : InvariantIn c s) (n : Bool) : InvariantIn c (s.setNmiPending n) :=
  ⟨h.config, h.legal, h.mem, h.ports, h.wait, h.decoder⟩

theorem InvariantIn.setFault (h : InvariantIn c s) (f : Option Fault) : InvariantIn c (s.setFault f) :=
  ⟨h.config, h.legal, h.mem, h.ports, h.wait, h.decoder⟩

theorem InvariantIn.piaRead (h : InvariantIn c s) (idx : Nat) : InvariantIn c (piaRead idx s).2 := by
  rcases piaRead_cases idx s with e | ⟨-, -, e⟩
  · rwa [e]
  · rw [e]; exact h.setPort _ (portInv_acknowledge (h.ports _))

/-- A control-register write keeps the invariant, the bit it may feed to the decoder among it (R242, R243). -/
theorem InvariantIn.writeControl (h : InvariantIn c s) (p : PortId) (v : Byte) : InvariantIn c (writeControl p v s) := by
  have ht := h.setPort p (portInv_control v (h.ports p))
  unfold Machine.writeControl
  dsimp only
  split
  · refine ht.setCvsd fun hx => ?_
    rw [ht.config]
    exact cvsdAddBit_within h.legal.2 hx _ (ht.decoder hx)
  · exact ht

theorem InvariantIn.piaWrite (h : InvariantIn c s) (idx : Nat) (v : Byte) : InvariantIn c (piaWrite idx v s) := by
  unfold Machine.piaWrite
  dsimp only
  split
  · exact h.writeControl _ v
  · split
    · exact h.setPort _ (h.ports (piaPort idx))
    · exact h.setPort _ (h.ports (piaPort idx))

end

/-! ## The operations keep the invariant -/

/-- If the operation succeeds, the state it leaves satisfies `P`. -/
def Leaves {α : Type} (P : State → Prop) (r : Res α) : Prop := ∀ v t, r = .ok v t → P t

theorem Leaves.ok {α : Type} {P : State → Prop} {v : α} {s : State} (h : P s) : Leaves P (.ok v s) := by
  intro _ _ e
  obtain ⟨_, rfl⟩ := Res.ok.inj e
  exact h

theorem Leaves.bind {α β : Type} {P : State → Prop} {r : Res α} {k : α → State → Res β} (hr : Leaves P r)
    (hk : ∀ v t, P t → Leaves P (k v t)) : Leaves P (r.bind k) := by
  intro v u e
  obtain ⟨w, t, h1, h2⟩ := bind_eq_ok.1 e
  exact hk w t (hr w t h1) v u h2

/-- An operation followed by a change of registers. -/
theorem Leaves.bindRegs {α β : Type} {c : Config} {r : Res α} {f : α → State → β} {k : α → State → State}
    (hr : Leaves (InvariantIn c) r) (hk : ∀ v t, SameOutside t (k v t)) :
    Leaves (InvariantIn c) (r.bind fun v t => .ok (f v t) (k v t)) :=
  hr.bind fun v t ht => .ok (ht.sameOutside (hk v t))

section
variable {c : Config} {s : State} (h : InvariantIn c s)
include h

theorem memRead8_keeps (addr : Word) : Leaves (InvariantIn c) (memRead8 addr s) := by
  intro v t e
  rcases memRead8_cases e with ⟨-, rfl⟩ | ⟨r, -, -, -, rfl⟩
  · exact h
  · exact h.piaRead _

theorem memWrite8_keeps (addr : Word) (v : Byte) : Leaves (InvariantIn c) (memWrite8 addr v s) := by
  intro _ t e
  rcases memWrite8_cases e with ⟨⟨r, hr, ho, -⟩, rfl⟩ | ⟨r, -, -, -, rfl⟩
  · exact h.setMem (memInv_write h.mem (h.config ▸ hr) ho v)
  · exact h.piaWrite _ v

theorem memRead16_keeps (addr : Word) : Leaves (InvariantIn c) (memRead16 addr s) :=
  (memRead8_keeps h addr).bind fun _ _ h1 => (memRead8_keeps h1 _).bind fun _ _ h2 => .ok h2

theorem memWrite16_keeps (addr v : Word) : Leaves (InvariantIn c) (memWrite16 addr v s) :=
  (memWrite8_keeps h addr _).bind fun _ _ h1 => memWrite8_keeps h1 _ _

theorem fetch8_keeps : Leaves (InvariantIn c) (fetch8 s) :=
  (memRead8_keeps h _).bindRegs fun _ _ => rfl

theorem push8_keeps (v : Byte) : Leaves (InvariantIn c) (push8 v s) :=
  (memWrite8_keeps h _ v).bindRegs fun _ _ => rfl

theorem pull8_keeps : Leaves (InvariantIn c) (pull8 s) :=
  memRead8_keeps (h.sameOutside (u := s.setSp (s.sp + 1)) rfl) _

theorem push16_keeps (v : Word) : Leaves (InvariantIn c) (push16 v s) :=
  (push8_keeps h _).bind fun _ _ h1 => push8_keeps h1 _

theorem pull16_keeps : Leaves (InvariantIn c) (pull16 s) :=
  (pull8_keeps h).bind fun _ _ h1 => (pull8_keeps h1).bind fun _ _ h2 => .ok h2

theorem stackAll_keeps : Leaves (InvariantIn c) (stackAll s) :=
  (push16_keeps h _).bind fun _ _ h1 => (push16_keeps h1 _).bind fun _ _ h2 => (push8_keeps h2 _).bind fun _ _ h3 =>
    (push8_keeps h3 _).bind fun _ _ h4 => push8_keeps h4 _

theorem vectorTo_keeps (vector : Word) : Leaves (InvariantIn c) (vectorTo vector s) :=
  (memRead16_keeps (h.sameOutside (u := s.setCc (s.cc.setI true)) rfl) vector).bindRegs
    fun _ _ => rfl

theorem enter_keeps (vector : Word) (stack : Bool) : Leaves (InvariantIn c) (enter vector stack s) := by
  unfold enter
  split
  · exact (stackAll_keeps h).bind fun _ _ h1 => vectorTo_keeps h1 vector
  · exact vectorTo_keeps h vector

theorem returnFromInterrupt_keeps : Leaves (InvariantIn c) (returnFromInterrupt s) :=
  (pull8_keeps h).bind fun cc s1 h1 =>
  (pull8_keeps (h1.sameOutside (u := s1.setCc (CC.ofByte cc)) rfl)).bind fun b s2 h2 =>
  (pull8_keeps (h2.sameOutside (u := s2.setB b) rfl)).bind fun a s3 h3 =>
  (pull16_keeps (h3.sameOutside (u := s3.setA a) rfl)).bind fun x s4 h4 =>
  (pull16_keeps (h4.sameOutside (u := s4.setX x) rfl)).bindRegs
    fun _ _ => rfl

theorem operand8_keeps (src : Src8) : Leaves (InvariantIn c) (operand8 src s) := by
  cases src with
  | imm v => exact .ok h
  | mem m => exact memRead8_keeps h _

theorem operand16_keeps (src : Src16) : Leaves (InvariantIn c) (operand16 src s) := by
  cases src with
  | imm v => exact .ok h
  | mem m => exact memRead16_keeps h _

theorem accOperand_keeps (f : Byte → Byte → CC → Alu) (r : Acc) (src : Src8) : Leaves (InvariantIn c) (accOperand f r src s) :=
  (operand8_keeps h src).bindRegs fun _ _ => by cases r <;> exact rfl

theorem accTest_keeps (f : Byte → Byte → CC → CC) (r : Acc) (src : Src8) : Leaves (InvariantIn c) (accTest f r src s) :=
  (operand8_keeps h src).bindRegs fun _ _ => rfl

theorem accModify_keeps (f : Byte → CC → Alu) (r : Acc) : Leaves (InvariantIn c) (accModify f r s) :=
  .ok (h.sameOutside (by cases r <;> exact rfl))

theorem memModify_keeps (f : Byte → CC → Alu) (ea : IdxExt) : Leaves (InvariantIn c) (memModify f ea s) :=
  (memRead8_keeps h _).bind fun _ _ h1 =>
    (memWrite8_keeps h1 _ _).bindRegs fun _ _ => rfl

theorem branch_keeps (cond : Cond) (rel : Byte) : Leaves (InvariantIn c) (branch cond rel s) := by
  unfold branch
  split
  · exact .ok (h.sameOutside rfl)
  · exact .ok h

theorem call_keeps (target : Word) : Leaves (InvariantIn c) (call target s) :=
  (push16_keeps h _).bindRegs fun _ _ => rfl

theorem fetchInstr_keeps : Leaves (InvariantIn c) (fetchInstr s) := by
  refine (fetch8_keeps h).bind fun op s1 h1 => ?_
  split
  · exact .ok h1
  · exact (fetch8_keeps h1).bind fun _ _ h2 => .ok h2
  · exact (fetch8_keeps h1).bind fun _ _ h2 => (fetch8_keeps h2).bind fun _ _ h3 => .ok h3

/-! Outcomes. -/

theorem execClr_keeps {ea : IdxExt} {t : State} (e : execClr ea s = .next t) : InvariantIn c t := by
  obtain ⟨s1, s2, hr, hw, rfl⟩ := execClr_cases e
  have h1 : InvariantIn c s1 := by
    rcases hr with rfl | ⟨v, hr⟩
    · exact h
    · exact memRead8_keeps h _ v s1 hr
  exact (memWrite8_keeps h1 _ _ () s2 hw).sameOutside rfl

theorem execWai_keeps {t : State} (e : execWai s = .next t) : InvariantIn c t := by
  obtain ⟨hm, s1, h1, rfl⟩ := execWai_cases e
  exact (stackAll_keeps h _ _ h1).setWaiWait fun _ => h.config ▸ hm

/-- An operation of any shape keeps the invariant. -/
theorem ExecShape.keeps {st ld : List Word} {o : Host.Outcome State Fault Refusal} (hs : ExecShape s st ld o) {t : State}
    (e : o = .next t) : InvariantIn c t := by
  have keeps : ∀ {r : Res Unit}, Leaves (InvariantIn c) r → r.outcome = .next t → InvariantIn c t :=
    fun hr e => hr _ _ (outcome_eq_next.1 e)
  cases hs with
  | illegal op => exact nomatch e
  | registers hr =>
    obtain rfl := Host.Outcome.next.inj e
    exact h.sameOutside hr
  | accOperand f r src => exact keeps (accOperand_keeps h f r src) e
  | accTest f r src => exact keeps (accTest_keeps h f r src) e
  | accModify f r => exact keeps (accModify_keeps h f r) e
  | memModify f ea => exact keeps (memModify_keeps h f ea) e
  | clear ea => exact execClr_keeps h e
  | load8 addr hk => exact keeps ((memRead8_keeps h addr).bindRegs hk) e
  | load16 src hk => exact keeps ((operand16_keeps h src).bindRegs hk) e
  | store8 addr v hk => exact keeps ((memWrite8_keeps h addr v).bindRegs hk) e
  | store16 addr v hk => exact keeps ((memWrite16_keeps h addr v).bindRegs hk) e
  | branch cond rel => exact keeps (branch_keeps h cond rel) e
  | call target => exact keeps (call_keeps h target) e
  | push v => exact keeps (push8_keeps h v) e
  | pull hk => exact keeps ((pull8_keeps h).bindRegs hk) e
  | pullWord hk => exact keeps ((pull16_keeps h).bindRegs hk) e
  | interrupt vector => exact keeps (enter_keeps h vector true) e
  | returnFromInterrupt => exact keeps (returnFromInterrupt_keeps h) e
  | wait => exact execWai_keeps h e

theorem exec_keeps {i : Instr} {t : State} (e : exec i s = .next t) : InvariantIn c t :=
  (exec_shape i s).keeps h e

theorem takeInterrupt_keeps {vector : Word} {t : State} (e : takeInterrupt vector s = .next t) : InvariantIn c t := by
  obtain ⟨_, s1, h1, h2⟩ := bind_eq_ok.1 (outcome_eq_next.1 e)
  obtain rfl := (Res.ok.inj h2).2
  exact (enter_keeps h vector _ _ s1 h1).setWaiWait (by simp)

theorem fetchExecute_keeps {t : State} (e : fetchExecute s = .next t) : InvariantIn c t := by
  unfold fetchExecute at e
  split at e
  next i s1 h1 => exact exec_keeps (fetchInstr_keeps h i s1 h1) e
  · exact nomatch e

/-- Every step keeps the invariant and the configuration, whichever arm of R226 it takes. -/
theorem step_keeps {t : State} (e : step s = .next t) : InvariantIn c t := by
  unfold step at e
  split at e
  · exact nomatch e
  · split at e
    · exact takeInterrupt_keeps (h.setNmiPending false) e
    · split at e
      · exact takeInterrupt_keeps h e
      · split at e
        · exact Host.Outcome.next.inj e ▸ h
        · exact fetchExecute_keeps h e

end

/-! ## The host's operations keep the invariant -/

section
variable {c : Config} {s : State} (h : InvariantIn c s)
include h

theorem hostStep_keeps : InvariantIn c (hostStep s) := by
  unfold hostStep
  split
  next t e => exact step_keeps h e
  · exact h.setFault _
  · exact h

theorem drivePort_keeps (p : PortId) (v : Byte) : InvariantIn c (drivePort p v s) :=
  h.setPort p (portInv_drive v (h.ports p))

theorem loadResetVector_keeps : InvariantIn c (loadResetVector s) := by
  unfold loadResetVector
  split
  next pc t e => exact (memRead16_keeps h resetVector pc t e).sameOutside rfl
  · exact h.setFault _

end

/-- The elements at their reset values, over canonical RAM, have the invariant in any legal configuration (R280). -/
theorem resetElements_invariant {c : Config} (hl : configLegal c) (d : ResetDraw) {ram : Memory} (hm : memInv c ram) (draws : Nat) :
    InvariantIn c (resetElements c d ram draws) where
  config := rfl
  legal := hl
  mem := hm
  ports p := by cases p <;> exact portInv_reset
  wait := nofun
  decoder _ := cvsdInv_reset hl.2

/-- A reset keeps RAM, or draws it again where a fault is recorded; it has the invariant either way (R280). -/
theorem hostReset_keeps {c : Config} {s : State} (h : InvariantIn c s) {d : ResetDraw} (hd : memInv c d.ram) :
    InvariantIn c (hostReset d s) := by
  have hram : memInv c (if s.fault = none then s.mem else d.ram) := by
    split
    · exact h.mem
    · exact hd
  unfold hostReset
  rw [h.config]
  exact loadResetVector_keeps (resetElements_invariant h.legal d hram s.draws)

theorem applyHostOp_keeps {c : Config} {s : State} (h : InvariantIn c s) {op : HostOp} (hop : hostOpLegal c op) :
    InvariantIn c (applyHostOp op s) := by
  cases op with
  | step => exact hostStep_keeps h
  | drivePort p v => exact drivePort_keeps h p v
  | assertNmi => exact h.setNmiPending true
  | reset d => exact hostReset_keeps h hop

/-- By induction on the operations, from every state with the invariant. -/
theorem runHost_keeps {c : Config} {ops : List HostOp} (hops : ∀ op ∈ ops, hostOpLegal c op) {s : State} (h : InvariantIn c s) :
    InvariantIn c (runHost ops s) := by
  induction ops generalizing s with
  | nil => exact h
  | cons op rest ih =>
    obtain ⟨hop, hrest⟩ := List.forall_mem_cons.1 hops
    exact ih hrest (applyHostOp_keeps h hop)

/-- Settles O60: every host operation keeps the invariant and the configuration, so every sequence of them does. -/
theorem hostRunsKeepInvariant : Obligations.HostRunsKeepInvariant := by
  unfold Obligations.HostRunsKeepInvariant
  intro s ops h hops
  exact invariantIn_iff.1 (runHost_keeps hops (invariantIn_iff.2 ⟨h, rfl⟩))

end Sys2Proof.Proofs

namespace Sys2Proof.Proofs

open Sys2Proof.Machine Sys2Proof.Safety Sys2Proof.Laws

/-! ## The invariant, a recorded fault and the flag instructions -/

/-- Settles O58: whichever arm of R226 a step takes, it keeps the invariant of the machine's own configuration. -/
theorem stepKeepsInvariant : Obligations.StepKeepsInvariant := by
  unfold Obligations.StepKeepsInvariant
  intro s t h e
  exact (invariantIn_iff.1 (step_keeps (invariantIn_iff.2 ⟨h, rfl⟩) e)).1

/-- A machine with a recorded fault takes no step (R18). -/
theorem step_of_fault {s : State} {f : Fault} (h : s.fault = some f) : step s = .fault f := by
  unfold step
  rw [h]

/-- A host operation other than a reset keeps a recorded fault: a step records the same one again (R18, R220). -/
theorem applyHostOp_fault {s : State} {f : Fault} (h : s.fault = some f) {op : HostOp} (hop : ∀ d, op ≠ .reset d) :
    (applyHostOp op s).fault = some f := by
  cases op with
  | step =>
    show (hostStep s).fault = some f
    rw [hostStep, step_of_fault h]
    rfl
  | drivePort p v => exact (setPort_fault s p _).trans h
  | assertNmi => exact h
  | reset d => exact absurd rfl (hop d)

/-- By induction on the operations. -/
theorem runHost_fault {f : Fault} {ops : List HostOp} (hops : ∀ op ∈ ops, ∀ d, op ≠ .reset d) {s : State} (h : s.fault = some f) :
    (runHost ops s).fault = some f := by
  induction ops generalizing s with
  | nil => exact h
  | cons op rest ih =>
    obtain ⟨hop, hrest⟩ := List.forall_mem_cons.1 hops
    exact ih hrest (applyHostOp_fault h hop)

/-- Settles O10: no step leaves a recorded fault, and no host operation but a reset clears it. -/
theorem faultIsAbsorbing : Obligations.FaultIsAbsorbing := by
  unfold Obligations.FaultIsAbsorbing
  intro s f h
  exact ⟨step_of_fault h, fun ops hops => runHost_fault hops h⟩

/-- The number of the condition codes read as a byte: each flag by its weight, bits 7:6 being 1 (R13, D28). -/
theorem toByte_toNat (cc : CC) : cc.toByte.toNat =
    0xC0 + 32 * cc.h.toNat + 16 * cc.i.toNat + 8 * cc.n.toNat + 4 * cc.z.toNat + 2 * cc.v.toNat + cc.c.toNat := by
  obtain ⟨h, i, n, z, v, c⟩ := cc
  revert h i n z v c
  decide

/-- Settles O47: eight of the nine are their rules as written; TPA's byte is that of the flags by their weights. -/
theorem flagInstructionResults : Obligations.FlagInstructionResults := by
  unfold Obligations.FlagInstructionResults
  intro s
  exact ⟨rfl, rfl, rfl, rfl, rfl, rfl, rfl, rfl, s.cc.toByte, rfl, toByte_toNat s.cc⟩

/-! ## What an instruction writes

An instruction is one bus or stack operation and a change of registers; `exec_onlyWrites` says for each which registers, flags and
hidden bits that leaves, and the two frames read it off. -/

/-- What an instruction may write outside RAM and the devices: registers, flags, PC, the wait bit and the count of free values. -/
structure Writes where
  regs : RegSet
  flags : FlagSet
  pc : Bool
  wait : Bool
  draws : Bool

/-- Only WAI starts a wait (R211). -/
def startsWait : Instr → Bool
  | .wai => true
  | _ => false

/-- Only DAA draws a free value (R114). -/
def drawsValue : Instr → Bool
  | .daa => true
  | _ => false

theorem startsWait_of_ne {i : Instr} (h : i ≠ .wai) : startsWait i = false := by
  unfold startsWait
  split
  · exact absurd rfl h
  · rfl

theorem drawsValue_of_ne {i : Instr} (h : i ≠ .daa) : drawsValue i = false := by
  unfold drawsValue
  split
  · exact absurd rfl h
  · rfl

/-- What the tables of R26 and of files 40 to 45 let an instruction write. -/
def writes (i : Instr) : Writes where
  regs := regsWritten i
  flags := flagsWritten i
  pc := transfersControl i
  wait := startsWait i
  draws := drawsValue i

/-- The flags of `d` that are in `w`, and those of `c` that are not. -/
def overlayFlags (w : FlagSet) (c d : CC) : CC where
  h := bif w.h then d.h else c.h
  i := bif w.i then d.i else c.i
  n := bif w.n then d.n else c.n
  z := bif w.z then d.z else c.z
  v := bif w.v then d.v else c.v
  c := bif w.c then d.c else c.c

/-- `t` is `s` but for RAM, the devices and what is in `w`. -/
structure OnlyWrites (w : Writes) (s t : State) : Prop where
  registers : t = { s with
    a := bif w.regs.a then t.a else s.a
    b := bif w.regs.b then t.b else s.b
    x := bif w.regs.x then t.x else s.x
    sp := bif w.regs.sp then t.sp else s.sp
    pc := bif w.pc then t.pc else s.pc
    waiWait := bif w.wait then t.waiWait else s.waiWait
    draws := bif w.draws then t.draws else s.draws
    cc := t.cc, mem := t.mem, portA := t.portA, portB := t.portB, cvsd := t.cvsd }
  flags : t.cc = overlayFlags w.flags s.cc t.cc

/-- `u` is `s` but for RAM, the devices and a stack pointer of `p`: what bus accesses leave, `p` being the old stack pointer but
for pushes and pulls. -/
def Reaches (s : State) (p : Word) (u : State) : Prop :=
  u = { s with mem := u.mem, portA := u.portA, portB := u.portB, cvsd := u.cvsd, sp := p }

section
variable {s t : State}

theorem reaches_memRead8 {addr : Word} (v : Byte) (u : State) (h : memRead8 addr s = .ok v u) : Reaches s s.sp u := by
  rw [memRead8_frame h]; exact rfl

theorem reaches_memWrite8 {addr : Word} {v : Byte} (_ : Unit) (u : State) (h : memWrite8 addr v s = .ok () u) :
    Reaches s s.sp u := by
  rw [memWrite8_frame h]; exact rfl

theorem reaches_memWrite16 {addr v : Word} (_ : Unit) (u : State) (h : memWrite16 addr v s = .ok () u) : Reaches s s.sp u := by
  rw [memWrite16_frame h]; exact rfl

theorem reaches_operand8 {src : Src8} (m : Byte) (u : State) (h : operand8 src s = .ok m u) : Reaches s s.sp u := by
  rw [operand8_frame h]; exact rfl

theorem reaches_operand16 {src : Src16} (m : Word) (u : State) (h : operand16 src s = .ok m u) : Reaches s s.sp u := by
  rw [operand16_frame h]; exact rfl

theorem reaches_pull8 (v : Byte) (u : State) (h : pull8 s = .ok v u) : Reaches s (s.sp + 1) u := by
  rw [pull8_frame h]; exact rfl

theorem reaches_pull16 (v : Word) (u : State) (h : pull16 s = .ok v u) : Reaches s (s.sp + 2) u := by
  rw [pull16_frame h]; exact rfl

theorem reaches_push16 {v : Word} (_ : Unit) (u : State) (h : push16 v s = .ok () u) : Reaches s (s.sp - 2) u :=
  push16_frame h

/-- A read and then a write (R38). -/
theorem reaches_readWrite {u : State} {addr addr' : Word} {v v' : Byte} (h1 : memRead8 addr s = .ok v t)
    (h2 : memWrite8 addr' v' t = .ok () u) : Reaches s s.sp u := by
  rw [memWrite8_frame h2, memRead8_frame h1]; exact rfl

variable {w : Writes}

/-- Accesses followed by a change of registers write what that change writes, whatever the accesses leave in RAM and the
devices. -/
theorem onlyWrites_thenRegs {α : Type} {r : Res α} {k : α → State → State} {p : Word}
    (hr : ∀ v u, r = .ok v u → Reaches s p u) (h : thenRegs r k = .next t)
    (hk : ∀ v mem portA portB cvsd,
      OnlyWrites w s (k v { s with mem := mem, portA := portA, portB := portB, cvsd := cvsd, sp := p })) :
    OnlyWrites w s t := by
  obtain ⟨v, u, h1, rfl⟩ := thenRegs_eq_next.1 h
  rw [hr v u h1]
  exact hk v _ _ _ _

/-- A read-modify-write of memory writes no register, and the flags its operation writes (R38). -/
theorem onlyWrites_memModify {f : Byte → CC → Alu} {ea : IdxExt} {fl : FlagSet} (h : (memModify f ea s).outcome = .next t)
    (hf : ∀ v cc, (f v cc).cc = overlayFlags fl cc (f v cc).cc) :
    OnlyWrites ⟨⟨false, false, false, false⟩, fl, false, false, false⟩ s t := by
  obtain ⟨v, s1, s2, h1, h2, rfl⟩ := memModify_cases (outcome_eq_next.1 h)
  rw [reaches_readWrite h1 h2]
  exact ⟨rfl, hf v s.cc⟩

theorem onlyWrites_execClr {ea : IdxExt} (h : execClr ea s = .next t) : OnlyWrites (writes (.clr ea)) s t := by
  obtain ⟨s1, s2, hr, hw, rfl⟩ := execClr_cases h
  have hs : Reaches s s.sp s2 := by
    rcases hr with rfl | ⟨v, hr⟩
    · exact reaches_memWrite8 () s2 hw
    · exact reaches_readWrite hr hw
  rw [hs]
  exact ⟨rfl, rfl⟩

/-- A branch writes PC (R140). -/
theorem onlyWrites_branch {cond : Cond} {rel : Byte} (h : (branch cond rel s).outcome = .next t) :
    OnlyWrites ⟨⟨false, false, false, false⟩, ⟨false, false, false, false, false, false⟩, true, false, false⟩ s t := by
  rw [branch_eq] at h
  obtain rfl := Host.Outcome.next.inj h
  split <;> exact ⟨rfl, rfl⟩

/-- SWI writes SP, PC and I (R209). -/
theorem onlyWrites_execSwi (h : execSwi s = .next t) : OnlyWrites (writes .swi) s t := by
  rw [enter_frame (outcome_eq_next.1 h)]
  exact ⟨rfl, rfl⟩

/-- WAI writes SP and the wait bit (R211). -/
theorem onlyWrites_execWai (h : execWai s = .next t) : OnlyWrites (writes .wai) s t := by
  obtain ⟨-, s1, h1, rfl⟩ := execWai_cases h
  rw [stackAll_frame h1]
  exact ⟨rfl, rfl⟩

/-- RTI writes every register and every flag, and no hidden bit (R210). -/
theorem onlyWrites_execRti (h : execRti s = .next t) : OnlyWrites (writes .rti) s t := by
  obtain ⟨cc, s1, h1, h⟩ := bind_eq_ok.1 (outcome_eq_next.1 h)
  obtain ⟨b, s2, h2, h⟩ := bind_eq_ok.1 h
  obtain ⟨a, s3, h3, h⟩ := bind_eq_ok.1 h
  obtain ⟨x, s4, h4, h⟩ := bind_eq_ok.1 h
  obtain ⟨pc, s5, h5, h⟩ := bind_eq_ok.1 h
  obtain rfl := (Res.ok.inj h).2
  rw [pull16_frame h5, pull16_frame h4, pull8_frame h3, pull8_frame h2, pull8_frame h1]
  exact ⟨rfl, rfl⟩

end

/-- Every instruction writes only what its rows of the tables name. -/
theorem exec_onlyWrites {i : Instr} {s t : State} (h : exec i s = .next t) : OnlyWrites (writes i) s t := by
  cases i with
  | adda _ | addb _ | adca _ | adcb _ | suba _ | subb _ | sbca _ | sbcb _ | anda _ | andb _ | oraa _ | orab _ | eora _ | eorb _
  | ldaa _ | ldab _ | cmpa _ | cmpb _ | bita _ | bitb _ =>
    exact onlyWrites_thenRegs reaches_operand8 h fun _ _ _ _ _ => ⟨rfl, rfl⟩
  | ldx _ | lds _ | cpx _ => exact onlyWrites_thenRegs reaches_operand16 h fun _ _ _ _ _ => ⟨rfl, rfl⟩
  | tst _ => exact onlyWrites_thenRegs reaches_memRead8 h fun _ _ _ _ _ => ⟨rfl, rfl⟩
  | staa _ | stab _ | psha | pshb => exact onlyWrites_thenRegs reaches_memWrite8 h fun _ _ _ _ _ => ⟨rfl, rfl⟩
  | stx _ | sts _ => exact onlyWrites_thenRegs reaches_memWrite16 h fun _ _ _ _ _ => ⟨rfl, rfl⟩
  | pula | pulb => exact onlyWrites_thenRegs reaches_pull8 h fun _ _ _ _ _ => ⟨rfl, rfl⟩
  | rts => exact onlyWrites_thenRegs reaches_pull16 h fun _ _ _ _ _ => ⟨rfl, rfl⟩
  | bsr _ | jsr _ => exact onlyWrites_thenRegs reaches_push16 h fun _ _ _ _ _ => ⟨rfl, rfl⟩
  | neg _ | inc _ | dec _ | com _ | asl _ | asr _ | lsr _ | rol _ | ror _ => exact onlyWrites_memModify h fun _ _ => rfl
  | clr _ => exact onlyWrites_execClr h
  | bra _ => exact onlyWrites_branch (cond := .always) h
  | bhi _ | bls _ | bcc _ | bcs _ | bne _ | beq _ | bvc _ | bvs _ | bpl _ | bmi _ | bge _ | blt _ | bgt _ | ble _ =>
    exact onlyWrites_branch h
  | swi => exact onlyWrites_execSwi h
  | wai => exact onlyWrites_execWai h
  | rti => exact onlyWrites_execRti h
  | nega | negb | inca | incb | deca | decb | coma | comb | asla | aslb | asra | asrb | lsra | lsrb | rola | rolb | rora | rorb
  | aba | sba | cba | inx | dex | ins | des | daa | jmp _ | tab | tba | tsx | txs | tsta | tstb | clra | clrb | clc | sec | clv | sev
  | cli | sei | tap | tpa | nop =>
    obtain rfl := Host.Outcome.next.inj h
    exact ⟨rfl, rfl⟩
  | _ => exact nomatch h

/-- What an overlay does not write is as before. -/
theorem eq_of_eq_bif {α : Type} {w : Bool} {x y : α} (h : x = bif w then x else y) (hw : w = false) : x = y := by
  rwa [hw] at h

/-- Settles O54: each flag of the state after is the old one where the table does not list it. -/
theorem flagFrame : Obligations.FlagFrame := by
  unfold Obligations.FlagFrame
  intro i s t h
  have e := (exec_onlyWrites h).flags
  exact ⟨eq_of_eq_bif (congrArg CC.h e), eq_of_eq_bif (congrArg CC.i e), eq_of_eq_bif (congrArg CC.n e),
    eq_of_eq_bif (congrArg CC.z e), eq_of_eq_bif (congrArg CC.v e), eq_of_eq_bif (congrArg CC.c e)⟩

/-- Settles O55: each register of the state after is the old one where its rule does not name it. -/
theorem registerFrame : Obligations.RegisterFrame := by
  unfold Obligations.RegisterFrame
  intro i s t h
  have e := (exec_onlyWrites h).registers
  exact ⟨eq_of_eq_bif (congrArg State.a e), eq_of_eq_bif (congrArg State.b e), eq_of_eq_bif (congrArg State.x e),
    eq_of_eq_bif (congrArg State.sp e), eq_of_eq_bif (congrArg State.pc e),
    fun hi => eq_of_eq_bif (congrArg State.waiWait e) (startsWait_of_ne hi),
    fun hi => eq_of_eq_bif (congrArg State.draws e) (drawsValue_of_ne hi),
    (exec_effect h).nmi, (exec_effect h).fault, (exec_effect h).config⟩

/-! ## Every instruction completes

Each operation answers a next state when what it reads is RAM or ROM and what it writes is writable RAM. -/

section
variable {s : State}

theorem memRead8_of_readable {addr : Word} (h : readable s addr) : ∃ v, memRead8 addr s = .ok v s := by
  obtain ⟨v, hv⟩ := Option.isSome_iff_exists.1 h
  exact ⟨v, memRead8_of_peek hv⟩

theorem memRead16_of_readable {addr : Word} (h : ∀ a ∈ [addr, addr + 1], readable s a) : ∃ v, memRead16 addr s = .ok v s := by
  simp only [List.forall_mem_cons, readable, Option.isSome_iff_exists] at h
  obtain ⟨⟨hi, hhi⟩, ⟨lo, hlo⟩, -⟩ := h
  exact ⟨_, memRead16_of_peek hhi hlo⟩

theorem operand8_of_readable {src : Src8} (h : ∀ a ∈ src8Reads src s, readable s a) : ∃ m, operand8 src s = .ok m s := by
  cases src with
  | imm v => exact ⟨v, rfl⟩
  | mem m => exact memRead8_of_readable (h _ (List.mem_singleton_self _))

theorem operand16_of_readable {src : Src16} (h : ∀ a ∈ src16Reads src s, readable s a) : ∃ m, operand16 src s = .ok m s := by
  cases src with
  | imm v => exact ⟨v, rfl⟩
  | mem m => exact memRead16_of_readable h

/-- A word write to RAM (R37). -/
theorem memWrite16_of_storable {addr v : Word} (h : ∀ a ∈ [addr, addr + 1], storable s a) :
    ∃ t, memWrite16 addr v s = .ok () t := by
  simp only [List.forall_mem_cons] at h
  obtain ⟨h0, h1, -⟩ := h
  exact ⟨_, by rw [memWrite16, memWrite8_of_storable _ h0, bind_ok]; exact memWrite8_of_storable _ (storable_congr rfl h1)⟩

/-- A word push onto RAM (R42). -/
theorem push16_of_storable {v : Word} (h : ∀ a ∈ [s.sp, s.sp - 1], storable s a) : ∃ t, push16 v s = .ok () t := by
  simp only [List.forall_mem_cons] at h
  obtain ⟨h0, h1, -⟩ := h
  rw [push16, push8_of_storable _ h0, bind_ok, push8_of_storable _ (storable_congr rfl h1)]
  exact ⟨_, rfl⟩

theorem pull8_of_readable (h : readable s (s.sp + 1)) : ∃ v t, pull8 s = .ok v t := by
  obtain ⟨v, hv⟩ := Option.isSome_iff_exists.1 h
  exact ⟨v, _, pull8_of_peek hv⟩

theorem pull16_of_readable (h : ∀ a ∈ [s.sp + 1, s.sp + 2], readable s a) : ∃ v t, pull16 s = .ok v t := by
  simp only [List.forall_mem_cons, readable, Option.isSome_iff_exists] at h
  obtain ⟨⟨hi, hhi⟩, ⟨lo, hlo⟩, -⟩ := h
  exact ⟨_, _, pull16_of_peek hhi hlo⟩

/-- The return from an interrupt, its frame in RAM or ROM (R210). -/
theorem returnFromInterrupt_of_readable
    (h : ∀ a ∈ [s.sp + 1, s.sp + 2, s.sp + 3, s.sp + 4, s.sp + 5, s.sp + 6, s.sp + 7], readable s a) :
    ∃ t, returnFromInterrupt s = .ok () t := by
  simp only [List.forall_mem_cons, readable, Option.isSome_iff_exists] at h
  obtain ⟨⟨c, h1⟩, ⟨b, h2⟩, ⟨a, h3⟩, ⟨xh, h4⟩, ⟨xl, h5⟩, ⟨ph, h6⟩, ⟨pl, h7⟩, -⟩ := h
  exact ⟨_, returnFromInterrupt_of_peek h1 h2 h3 h4 h5 h6 h7⟩

/-- The stacking of the frame, its seven addresses in RAM (R224); it keeps the configuration. -/
theorem stackAll_completes (h : ∀ a ∈ [s.sp, s.sp - 1, s.sp - 2, s.sp - 3, s.sp - 4, s.sp - 5, s.sp - 6], storable s a) :
    ∃ t, stackAll s = .ok () t ∧ t.config = s.config := by
  have hf : frameStorable s := by
    simp only [frameStorable, frameBytes, List.forall_mem_cons] at h ⊢
    tauto
  obtain ⟨t, ht, e, -⟩ := stackAll_of_storable hf
  exact ⟨t, ht, by rw [e]⟩

/-- An interrupt entry on a stack in RAM with a vector in RAM or ROM (R225). -/
theorem enter_completes {vector : Word}
    (hs : ∀ a ∈ [s.sp, s.sp - 1, s.sp - 2, s.sp - 3, s.sp - 4, s.sp - 5, s.sp - 6], storable s a)
    (hv : ∀ a ∈ [vector, vector + 1], readable s a) : ∃ t, enter vector true s = .ok () t := by
  obtain ⟨s1, h1, hc⟩ := stackAll_completes hs
  simp only [List.forall_mem_cons, ← readable_congr hc, Option.isSome_iff_exists] at hv
  obtain ⟨⟨hi, hhi⟩, ⟨lo, hlo⟩, -⟩ := hv
  rw [enter, if_pos rfl, h1, bind_ok, vectorTo_of_peek hhi hlo]
  exact ⟨_, rfl⟩

/-- A read-modify-write of RAM (R38). -/
theorem memModify_completes {f : Byte → CC → Alu} {ea : IdxExt} (hs : storable s (effAddr ea.toMem s))
    (hr : readable s (effAddr ea.toMem s)) : ∃ t, memModify f ea s = .ok () t := by
  obtain ⟨v, hv⟩ := memRead8_of_readable hr
  rw [memModify, hv, bind_ok, memWrite8_of_storable _ hs]
  exact ⟨_, rfl⟩

/-- CLR of RAM, in both settings of `CLR_READS_OPERAND` (R196). -/
theorem execClr_completes {ea : IdxExt} (hs : storable s (effAddr ea.toMem s)) (hr : readable s (effAddr ea.toMem s)) :
    ∃ t, execClr ea s = .next t := by
  obtain ⟨v, hv⟩ := memRead8_of_readable hr
  rw [execClr, hv, bind_ok, memWrite8_of_storable _ hs, ite_self]
  exact ⟨_, rfl⟩

theorem execWai_completes (hm : s.config.waiMode = .motorola)
    (hs : ∀ a ∈ [s.sp, s.sp - 1, s.sp - 2, s.sp - 3, s.sp - 4, s.sp - 5, s.sp - 6], storable s a) :
    ∃ t, execWai s = .next t := by
  obtain ⟨t, ht, -⟩ := stackAll_completes hs
  rw [execWai, hm]
  exact ⟨_, by rw [ht]; rfl⟩

end

/-- A step that ends with an operation that succeeds. -/
theorem outcome_completes {r : Res Unit} (h : ∃ t, r = .ok () t) : ∃ t, r.outcome = .next t :=
  h.imp fun _ => outcome_eq_next.2

/-- An operation that succeeds, and a change of registers. -/
theorem thenRegs_completes {α : Type} {r : Res α} {k : α → State → State} (h : ∃ v t, r = .ok v t) :
    ∃ t, thenRegs r k = .next t := by
  obtain ⟨v, t, h⟩ := h
  exact ⟨_, thenRegs_eq_next.2 ⟨v, t, h, rfl⟩⟩

/-- A well-formed instruction answers a next state when its addresses are RAM, those it only reads perhaps ROM. -/
theorem exec_completes {i : Instr} {s : State} (hv : i.WellFormed) (hw : i = .wai → s.config.waiMode = .motorola)
    (hs : ∀ a ∈ storedAddrs i s, storable s a) (hr : ∀ a ∈ loadedAddrs i s, readable s a) : ∃ t, exec i s = .next t := by
  cases i with
  | adda _ | addb _ | adca _ | adcb _ | suba _ | subb _ | sbca _ | sbcb _ | anda _ | andb _ | oraa _ | orab _ | eora _ | eorb _
  | ldaa _ | ldab _ | cmpa _ | cmpb _ | bita _ | bitb _ =>
    obtain ⟨m, h⟩ := operand8_of_readable hr
    exact thenRegs_completes ⟨m, s, h⟩
  | ldx _ | lds _ | cpx _ =>
    obtain ⟨m, h⟩ := operand16_of_readable hr
    exact thenRegs_completes ⟨m, s, h⟩
  | tst _ =>
    obtain ⟨v, h⟩ := memRead8_of_readable (hr _ (List.mem_singleton_self _))
    exact thenRegs_completes ⟨v, s, h⟩
  | staa _ | stab _ | psha | pshb =>
    exact thenRegs_completes ⟨(), _, memWrite8_of_storable _ (hs _ (List.mem_singleton_self _))⟩
  | stx _ | sts _ =>
    obtain ⟨t, h⟩ := memWrite16_of_storable hs
    exact thenRegs_completes ⟨(), t, h⟩
  | bsr _ | jsr _ =>
    obtain ⟨t, h⟩ := push16_of_storable hs
    exact thenRegs_completes ⟨(), t, h⟩
  | pula | pulb => exact thenRegs_completes (pull8_of_readable (hr _ (List.mem_singleton_self _)))
  | rts => exact thenRegs_completes (pull16_of_readable hr)
  | neg _ | inc _ | dec _ | com _ | asl _ | asr _ | lsr _ | rol _ | ror _ =>
    exact outcome_completes (memModify_completes (hs _ (List.mem_singleton_self _)) (hr _ (List.mem_singleton_self _)))
  | clr _ => exact execClr_completes (hs _ (List.mem_singleton_self _)) (hr _ (List.mem_singleton_self _))
  | swi => exact outcome_completes (enter_completes hs hr)
  | wai => exact execWai_completes (hw rfl) hs
  | rti => exact outcome_completes (returnFromInterrupt_of_readable hr)
  | bra _ => exact outcome_completes ⟨_, branch_eq .always _ s⟩
  | bhi _ | bls _ | bcc _ | bcs _ | bne _ | beq _ | bvc _ | bvs _ | bpl _ | bmi _ | bge _ | blt _ | bgt _ | ble _ =>
    exact outcome_completes ⟨_, branch_eq _ _ s⟩
  | nega | negb | inca | incb | deca | decb | coma | comb | asla | aslb | asra | asrb | lsra | lsrb | rola | rolb | rora | rorb
  | aba | sba | cba | inx | dex | ins | des | daa | jmp _ | tab | tba | tsx | txs | tsta | tstb | clra | clrb | clc | sec | clv | sev
  | cli | sei | tap | tpa | nop => exact ⟨_, rfl⟩
  | _ => exact nomatch hv

/-- Settles O52: by the operation each instruction is. -/
theorem everyInstructionCompletes : Obligations.EveryInstructionCompletes := by
  unfold Obligations.EveryInstructionCompletes
  intro i s hv hw hs hr
  exact exec_completes hv hw hs hr

end Sys2Proof.Proofs

namespace Sys2Proof.Proofs

open Sys2Proof.Machine Sys2Proof.Safety Sys2Proof.Laws

/-! ## Memory: the address map, the bus, words and the stack (20_memory.md) -/

/-! The address map. -/

theorem regionHolds_iff {r : Region} {addr : Word} :
    regionHolds r addr = true ↔ r.lo.toNat ≤ addr.toNat ∧ addr.toNat ≤ r.hi.toNat := by
  simp [regionHolds, BitVec.le_def]

/-- Regions of a list of disjoint ranges that hold one address are the same region (R30). -/
theorem region_eq_of_holds {l : List Region} (hl : l.Pairwise regionsDisjoint) {r q : Region} (hr : r ∈ l) (hq : q ∈ l)
    {addr : Word} (hra : regionHolds r addr = true) (hqa : regionHolds q addr = true) : r = q := by
  by_contra hne
  have : Std.Symm regionsDisjoint := ⟨fun _ _ => Or.symm⟩
  have hd : regionsDisjoint r q := hl.forall hr hq hne
  rw [regionHolds_iff] at hra hqa
  simp only [regionsDisjoint, BitVec.lt_def] at hd
  omega

theorem resolve_eq_none_iff {c : Config} {addr : Word} :
    resolve c addr = none ↔ ∀ r ∈ c.regions, ¬ regionHolds r addr = true :=
  List.find?_eq_none

/-- In a map of disjoint regions an address resolves to any region that holds it (R30). -/
theorem resolve_eq_some_of_holds {c : Config} (hd : c.regions.Pairwise regionsDisjoint) {r : Region} (hr : r ∈ c.regions)
    {addr : Word} (ha : regionHolds r addr = true) : resolve c addr = some r := by
  cases hq : resolve c addr with
  | none => exact absurd ha (resolve_eq_none_iff.1 hq r hr)
  | some q =>
    obtain ⟨hmem, hqa⟩ := resolve_mem hq
    rw [region_eq_of_holds hd hr hmem ha hqa]

/-- Settles O15: the first region that holds an address is the only one, the ranges being disjoint. -/
theorem resolveIsUnique : Obligations.ResolveIsUnique := by
  unfold Obligations.ResolveIsUnique
  intro c addr hc
  obtain ⟨-, hd, -⟩ := hc
  refine ⟨fun r hr hlo hhi => resolve_eq_some_of_holds hd hr (regionHolds_iff.2 ⟨hlo, hhi⟩), ?_⟩
  simp only [resolve_eq_none_iff, regionHolds_iff, not_and_or, not_le]

/-! The bus, by the owner of the region. -/

section
variable {s : State} {addr : Word} {r : Region}

theorem memRead8_unmapped (hr : resolve s.config addr = none) : memRead8 addr s = .fault (.busFault addr .readUnmapped) := by
  rw [memRead8, hr]

theorem memRead8_ram (hr : resolve s.config addr = some r) (ho : r.owner = .ram) :
    memRead8 addr s = .ok (s.mem.read addr.toNat) s :=
  memRead8_of_peek (by simp [peek, hr, ho])

theorem memRead8_rom {k : Nat} (hr : resolve s.config addr = some r) (ho : r.owner = .rom k) :
    memRead8 addr s = .ok (romByte s.config k r addr) s :=
  memRead8_of_peek (by simp [peek, hr, ho])

theorem memRead8_pia (hr : resolve s.config addr = some r) (ho : r.owner = .pia) :
    memRead8 addr s = .ok (piaRead (addr - r.lo).toNat s).1 (piaRead (addr - r.lo).toNat s).2 := by
  simp [memRead8, hr, ho]

theorem memWrite8_unmapped (v : Byte) (hr : resolve s.config addr = none) :
    memWrite8 addr v s = .fault (.busFault addr .writeUnmapped) := by
  rw [memWrite8, hr]

theorem memWrite8_unwritable (v : Byte) (hr : resolve s.config addr = some r) (hw : r.writable = false) :
    memWrite8 addr v s = .fault (.busFault addr .writeToRom) := by
  simp [memWrite8, hr, hw]

theorem memWrite8_pia (v : Byte) (hr : resolve s.config addr = some r) (hw : r.writable = true) (ho : r.owner = .pia) :
    memWrite8 addr v s = .ok () (piaWrite (addr - r.lo).toNat v s) := by
  simp [memWrite8, hr, hw, ho]

/-- A byte written to RAM stands there, and nothing but RAM differs (R31, R35). -/
theorem memWrite8_stores (v : Byte) (h : storable s addr) :
    ∃ t, memWrite8 addr v s = .ok () t ∧ peek addr t = some v ∧ t = { s with mem := t.mem } :=
  ⟨_, memWrite8_of_storable v h, by rw [peek_setMem v h, if_pos rfl], rfl⟩

end

/-- Settles O16: the four cases of a bus read. -/
theorem busRead : Obligations.BusRead := by
  unfold Obligations.BusRead
  intro s addr
  exact ⟨memRead8_unmapped, fun r hr => ⟨memRead8_ram hr, fun _ => memRead8_rom hr, fun ho => ⟨_, _, rfl, memRead8_pia hr ho⟩⟩⟩

/-- Settles O17: the four cases of a bus write; one to RAM leaves every byte but its own. -/
theorem busWrite : Obligations.BusWrite := by
  unfold Obligations.BusWrite
  intro s addr v
  refine ⟨memWrite8_unmapped v, fun r hr => ⟨memWrite8_unwritable v hr, memWrite8_pia v hr, fun hw ho => ?_⟩⟩
  obtain ⟨t, ht, hp, he⟩ := memWrite8_stores v ⟨r, hr, ho, hw⟩
  exact ⟨t, ht, hp, memWrite8_peek ht, he⟩

/-! Words. -/

theorem add_one_ne_self (w : Word) : w + 1 ≠ w := by bv_omega

/-- A word written to RAM stands there high byte first, and nothing but RAM differs (R37). -/
theorem memWrite16_stores {s : State} {addr : Word} (v : Word) (h0 : storable s addr) (h1 : storable s (addr + 1)) :
    ∃ t, memWrite16 addr v s = .ok () t ∧ peek addr t = some (byteHi v) ∧ peek (addr + 1) t = some (byteLo v) ∧
      t = { s with mem := t.mem } := by
  obtain ⟨s1, hw0, hp0, he0⟩ := memWrite8_stores (byteHi v) h0
  obtain ⟨t, hw1, hp1, he1⟩ := memWrite8_stores (byteLo v) (storable_congr (t := s1) (by rw [he0]) h1)
  have kept : peek addr t = peek addr s1 := memWrite8_peek hw1 addr (add_one_ne_self addr).symm
  exact ⟨t, by rw [memWrite16, hw0, bind_ok, hw1], kept.trans hp0, hp1, by rw [he1, he0]⟩

/-- The second byte of a word write may fault after the first has been written (R37). -/
theorem memWrite16_second_unmapped {s s1 : State} {addr v : Word} (h : memWrite8 addr (byteHi v) s = .ok () s1)
    (hr : resolve s.config (addr + 1) = none) : memWrite16 addr v s = .fault (.busFault (addr + 1) .writeUnmapped) := by
  have hc : s1.config = s.config := by rw [memWrite8_frame h]
  rw [memWrite16, h, bind_ok, memWrite8_unmapped _ (hc ▸ hr)]

/-- The second byte of a word read may fault after the first has been read (R36). -/
theorem memRead16_second_unmapped {s s1 : State} {addr : Word} {v : Byte} (h : memRead8 addr s = .ok v s1)
    (hr : resolve s.config (addr + 1) = none) : memRead16 addr s = .fault (.busFault (addr + 1) .readUnmapped) := by
  have hc : s1.config = s.config := by rw [memRead8_frame h]
  rw [memRead16, h, bind_ok, memRead8_unmapped (hc ▸ hr), bind_fault]

/-- Settles O18: the bytes the two writes leave are those the two reads join again. -/
theorem wordAccess : Obligations.WordAccess := by
  unfold Obligations.WordAccess
  simp only [← byteHi_eq_ofNat, ← byteLo_eq_ofNat]
  refine ⟨fun s addr v h0 h1 => ?_, fun _ _ _ _ => memWrite16_second_unmapped, fun _ _ _ _ => memRead16_second_unmapped⟩
  obtain ⟨t, ht, hhi, hlo, he⟩ := memWrite16_stores v h0 h1
  have kept : ∀ a, a ≠ addr → a ≠ addr + 1 → peek a t = peek a s :=
    fun a ha ha1 => (effect_memWrite16 ht).peek a fun h => (List.mem_pair.1 h).elim ha ha1
  have back : memRead16 addr t = .ok v t := by rw [memRead16_of_peek hhi hlo, joinBytes_byteHi_byteLo]
  exact ⟨t, ht, hhi, hlo, kept, he, back⟩

/-! The stack. -/

/-- A word pushed onto RAM stands there high byte first from the new SP plus one, and nothing but RAM and SP differs (R42). -/
theorem push16_stores {s : State} (v : Word) (h0 : storable s s.sp) (h1 : storable s (s.sp - 1)) :
    ∃ t, push16 v s = .ok () t ∧ t.sp = s.sp - 2 ∧ peek (t.sp + 1) t = some (byteHi v) ∧ peek (t.sp + 2) t = some (byteLo v) ∧
      t = { s with mem := t.mem, sp := t.sp } := by
  obtain ⟨s1, hp0, hlo, he0⟩ := push8_eq_of_storable (byteLo v) h0
  have hsp1 : s1.sp = s.sp - 1 := by rw [he0]
  obtain ⟨t, hp1, hhi, he1⟩ := push8_eq_of_storable (byteHi v) (storable_congr (t := s1) (by rw [he0]) (hsp1 ▸ h1))
  have hsp : t.sp = s1.sp - 1 := by rw [he1]
  have kept : peek s.sp t = peek s.sp s1 := push8_peek hp1 s.sp (by rw [hsp1]; exact (sub_ne_self s.sp (by decide)).symm)
  refine ⟨t, by rw [push16, hp0, bind_ok, hp1], ?_, ?_, ?_, by rw [he1, he0]⟩
  · rw [hsp, hsp1, sub_sub_eq s.sp (by decide : (1 : Word) + 1 = 2)]
  · rwa [hsp, BitVec.sub_add_cancel]
  · rw [hsp, hsp1, show s.sp - 1 - 1 + 2 = s.sp by bv_omega, kept, hlo]

/-- A pushed byte is pulled again, and SP is as it was (R40, R41). -/
theorem push8_then_pull8 {s : State} (v : Byte) (h : storable s s.sp) :
    ∃ t, push8 v s = .ok () t ∧ t.sp = s.sp - 1 ∧ peek s.sp t = some v ∧ t = { s with mem := t.mem, sp := t.sp } ∧
      pull8 t = .ok v { t with sp := s.sp } := by
  obtain ⟨t, ht, hp, he⟩ := push8_eq_of_storable v h
  have hsp : t.sp = s.sp - 1 := by rw [he]
  have hback : t.sp + 1 = s.sp := by rw [hsp, BitVec.sub_add_cancel]
  refine ⟨t, ht, hsp, hp, by rw [hsp]; exact he, ?_⟩
  rw [pull8_of_peek (by rw [hback]; exact hp), hback]
  rfl

/-- Settles O19: a pull reads the addresses the push has written. -/
theorem pushThenPull : Obligations.PushThenPull := by
  unfold Obligations.PushThenPull
  simp only [← byteHi_eq_ofNat, ← byteLo_eq_ofNat]
  refine ⟨fun s v h => ?_, fun s v h0 h1 => ?_⟩
  · obtain ⟨t, ht, hsp, hp, he, hback⟩ := push8_then_pull8 v h
    exact ⟨t, ht, hsp, hp, push8_peek ht, he, hback⟩
  · obtain ⟨t, ht, hsp, hhi, hlo, he⟩ := push16_stores v h0 h1
    have hback : pull16 t = .ok v { t with sp := s.sp } := by
      rw [pull16_of_peek hhi hlo, joinBytes_byteHi_byteLo, hsp, BitVec.sub_add_cancel]
      rfl
    exact ⟨t, ht, hsp, hhi, hlo, push16_peek ht, he, hback⟩

/-! Every instruction. -/

/-- Settles O56: the effect of an instruction stores to no address but those its meaning computes. -/
theorem memoryFrame : Obligations.MemoryFrame := by
  unfold Obligations.MemoryFrame
  intro i s t h
  exact (exec_effect h).peek

end Sys2Proof.Proofs

namespace Sys2Proof.Proofs

open Sys2Proof.Machine Sys2Proof.Safety Sys2Proof.Laws

/-! ## The opcode map, the decoder and the encoder (30_encoding.md) -/

/-! The rows of the opcode map. -/

/-- The descriptor of the row an instruction stands in (R61). -/
def descriptorOf (i : Instr) : Descriptor where
  mnemonic := i.mnemonic
  mode := i.mode
  cycles := i.cycles
  invalid := !i.valid

/-- The row of the opcode map an instruction stands in: its opcode byte and its descriptor, all but the operand (R71). -/
def rowOf (i : Instr) : Byte × Descriptor := (i.opcode, descriptorOf i)

/-- `f` gives the instructions of one row: the operand `v` has the bytes `bytes v`, and the row reads it by `fill` from the two
bytes after the opcode. -/
structure OperandRow {α : Type} (bytes : α → List Byte) (fill : Byte → Byte → α) (f : α → Instr) : Prop where
  count : ∀ v, (f v).mode.operandBytes = (bytes v).length
  operand : ∀ v, (f v).operand = bytes v
  row : ∀ v w, rowOf (f v) = rowOf (f w)
  decodes : ∀ b1 b2, decodeWith (f (fill 0 0)).opcode b1 b2 = f (fill b1 b2)

/-- The rows whose operand is a byte. -/
abbrev ByteRow : (Byte → Instr) → Prop := OperandRow (fun b => [b]) fun b1 _ => b1

/-- The rows whose operand is a word, high byte first (R60). -/
abbrev WordRow : (Word → Instr) → Prop := OperandRow (fun w => [byteHi w, byteLo w]) joinBytes

/-- The kinds of rows, by the number of operand bytes (R60). -/
inductive RowShape : Instr → Prop
  | inherent {i : Instr} (count : i.mode.operandBytes = 0) (operand : i.operand = [])
      (decodes : ∀ b1 b2, decodeWith i.opcode b1 b2 = i) : RowShape i
  | byte {f : Byte → Instr} (b : Byte) (h : ByteRow f) : RowShape (f b)
  | word {f : Word → Instr} (w : Word) (h : WordRow f) : RowShape (f w)

/-! The rows of a mnemonic, one for each form of its operand (R69 to R71). -/

theorem rowShape_of_idxExt {g : IdxExt → Instr} (idx : ByteRow fun off => g (.idx off)) (ext : WordRow fun addr => g (.ext addr))
    (m : IdxExt) : RowShape (g m) := by
  cases m with
  | idx off => exact .byte off idx
  | ext addr => exact .word addr ext

theorem rowShape_of_mem {g : Mem → Instr} (dir : ByteRow fun addr => g (.dir addr)) (idx : ByteRow fun off => g (.idx off))
    (ext : WordRow fun addr => g (.ext addr)) (m : Mem) : RowShape (g m) := by
  cases m with
  | dir addr => exact .byte addr dir
  | idx off => exact .byte off idx
  | ext addr => exact .word addr ext

theorem rowShape_of_src8 {g : Src8 → Instr} (imm : ByteRow fun value => g (.imm value))
    (dir : ByteRow fun addr => g (.mem (.dir addr))) (idx : ByteRow fun off => g (.mem (.idx off)))
    (ext : WordRow fun addr => g (.mem (.ext addr))) (src : Src8) : RowShape (g src) := by
  cases src with
  | imm value => exact .byte value imm
  | mem m => exact rowShape_of_mem (g := fun m => g (.mem m)) dir idx ext m

theorem rowShape_of_src16 {g : Src16 → Instr} (imm : WordRow fun value => g (.imm value))
    (dir : ByteRow fun addr => g (.mem (.dir addr))) (idx : ByteRow fun off => g (.mem (.idx off)))
    (ext : WordRow fun addr => g (.mem (.ext addr))) (src : Src16) : RowShape (g src) := by
  cases src with
  | imm value => exact .word value imm
  | mem m => exact rowShape_of_mem (g := fun m => g (.mem m)) dir idx ext m

/-- Every instruction stands in the row of its opcode. -/
theorem rowShape (i : Instr) : RowShape i := by
  cases i with
  | bra rel | bhi rel | bls rel | bcc rel | bcs rel | bne rel | beq rel | bvc rel | bvs rel | bpl rel | bmi rel | bge rel | blt rel
  | bgt rel | ble rel | bsr rel => exact .byte rel ⟨fun _ => rfl, fun _ => rfl, fun _ _ => rfl, fun _ _ => rfl⟩
  | neg m | com m | lsr m | ror m | asr m | asl m | rol m | dec m | inc m | tst m | jmp m | clr m | jsr m =>
    refine rowShape_of_idxExt ?_ ?_ m <;> exact ⟨fun _ => rfl, fun _ => rfl, fun _ _ => rfl, fun _ _ => rfl⟩
  | staa m | stab m | stx m | sts m =>
    refine rowShape_of_mem ?_ ?_ ?_ m <;> exact ⟨fun _ => rfl, fun _ => rfl, fun _ _ => rfl, fun _ _ => rfl⟩
  | suba src | subb src | cmpa src | cmpb src | sbca src | sbcb src | anda src | andb src | bita src | bitb src | ldaa src | ldab src
  | eora src | eorb src | adca src | adcb src | oraa src | orab src | adda src | addb src =>
    refine rowShape_of_src8 ?_ ?_ ?_ ?_ src <;> exact ⟨fun _ => rfl, fun _ => rfl, fun _ _ => rfl, fun _ _ => rfl⟩
  | cpx src | lds src | ldx src =>
    refine rowShape_of_src16 ?_ ?_ ?_ ?_ src <;> exact ⟨fun _ => rfl, fun _ => rfl, fun _ _ => rfl, fun _ _ => rfl⟩
  | _ => exact .inherent rfl rfl fun _ _ => rfl

/-! What the map gives for the opcode of an instruction. -/

section
variable {α : Type} {bytes : α → List Byte} {fill : Byte → Byte → α} {f : α → Instr}

theorem OperandRow.opcode_eq (h : OperandRow bytes fill f) (v w : α) : (f v).opcode = (f w).opcode :=
  congrArg Prod.fst (h.row v w)

theorem OperandRow.descriptorOf_eq (h : OperandRow bytes fill f) (v w : α) : descriptorOf (f v) = descriptorOf (f w) :=
  congrArg Prod.snd (h.row v w)

theorem OperandRow.decodeWith_opcode (h : OperandRow bytes fill f) (v : α) (b1 b2 : Byte) :
    decodeWith (f v).opcode b1 b2 = f (fill b1 b2) := by
  rw [h.opcode_eq v (fill 0 0), h.decodes]

theorem OperandRow.encode_eq (h : OperandRow bytes fill f) (v w : α) : encode (f v) = (f w).opcode :: bytes v := by
  rw [encode, h.operand, h.opcode_eq v w]

end

theorem describe_eq (op : Byte) : describe op = descriptorOf (decodeWith op 0 0) := rfl

/-- The descriptor of an instruction's opcode is the instruction's own (R61). -/
theorem describe_opcode (i : Instr) : describe i.opcode = descriptorOf i := by
  rw [describe_eq]
  cases rowShape i with
  | inherent _ _ decodes => rw [decodes]
  | byte _ h | word _ h => rw [h.decodeWith_opcode, h.descriptorOf_eq]

theorem operandCount_opcode (i : Instr) : operandCount i.opcode = i.mode.operandBytes :=
  congrArg (·.mode.operandBytes) (describe_opcode i)

/-- The map gives for each byte an instruction whose opcode it is (R61). -/
theorem opcode_decodeWith : ∀ op : Byte, (decodeWith op 0 0).opcode = op := by decide +kernel

theorem opcode_surjective : Function.Surjective Instr.opcode := fun op => ⟨_, opcode_decodeWith op⟩

/-! Decoding and encoding. -/

theorem decode_encode (i : Instr) (rest : List Byte) : decode (encode i ++ rest) = .instr i rest := by
  have hc := operandCount_opcode i
  cases rowShape i with
  | inherent count operand decodes =>
    rw [encode, operand]
    exact decode_of_count_zero _ _ _ (hc.trans count) (decodes 0 0)
  | byte b h =>
    rw [h.encode_eq b b]
    exact decode_of_count_one _ b _ _ (hc.trans (h.count b)) (h.decodeWith_opcode b b 0)
  | word w h =>
    rw [h.encode_eq w w]
    exact decode_of_count_two _ w _ _ (hc.trans (h.count w)) (by rw [h.decodeWith_opcode, joinBytes_byteHi_byteLo])

/-- Settles O1: each kind of row gives the instruction back from its own operand bytes. -/
theorem decodeOfEncodeIsIdentity : Obligations.DecodeOfEncodeIsIdentity := by
  unfold Obligations.DecodeOfEncodeIsIdentity
  exact decode_encode

/-- An opcode byte with enough bytes after it begins the encoding of an instruction of that opcode. -/
theorem exists_encoding {op : Byte} {tail : List Byte} (h : operandCount op ≤ tail.length) :
    ∃ i : Instr, i.opcode = op ∧ op :: tail = encode i ++ tail.drop (operandCount op) := by
  obtain ⟨i, rfl⟩ := opcode_surjective op
  rw [operandCount_opcode] at h ⊢
  cases rowShape i with
  | inherent count operand _ => exact ⟨_, rfl, by rw [encode, operand, count]; rfl⟩
  | @byte f b row =>
    rw [row.count] at h ⊢
    obtain ⟨b1, t, rfl⟩ := List.exists_cons_of_length_pos h
    exact ⟨f b1, row.opcode_eq b1 b, by rw [row.encode_eq b1 b]; rfl⟩
  | @word f w row =>
    rw [row.count] at h ⊢
    match tail, (h : 2 ≤ tail.length) with
    | b1 :: b2 :: t, _ =>
      exact ⟨f (joinBytes b1 b2), row.opcode_eq _ w, by rw [row.encode_eq _ w, byteHi_joinBytes, byteLo_joinBytes]; rfl⟩

/-- An opcode byte with too few bytes after it is no instruction (R60). -/
theorem decode_of_short {op : Byte} {tail : List Byte} (h : tail.length < operandCount op) :
    decode (op :: tail) = .error (.missingOperand op) := by
  unfold decode
  rcases operandCount_cases op with hc | hc | hc <;> rw [hc] at h
  · exact absurd h (Nat.not_lt_zero _)
  · match tail, h with
    | [], _ => simp only [hc]
  · match tail, h with
    | [], _ | [_], _ => simp only [hc]

theorem eq_encode_of_decode {bytes rest : List Byte} {i : Instr} (h : decode bytes = .instr i rest) : bytes = encode i ++ rest := by
  cases bytes with
  | nil => exact nomatch h
  | cons op tail =>
    by_cases hl : operandCount op ≤ tail.length
    · obtain ⟨j, -, hj⟩ := exists_encoding hl
      rw [hj, decode_encode] at h
      obtain ⟨rfl, rfl⟩ := Decoded.instr.inj h
      exact hj
    · rw [decode_of_short (not_le.1 hl)] at h
      exact nomatch h

/-- Settles O2: what decodes begins with some encoding, and that decodes to its own instruction only. -/
theorem decodedBytesAreTheEncoding : Obligations.DecodedBytesAreTheEncoding := by
  unfold Obligations.DecodedBytesAreTheEncoding
  exact fun _ _ _ => eq_encode_of_decode

/-- Settles O4: the bytes from the opcode on are an encoding, and the instruction has the descriptor of its opcode. -/
theorem opcodeByteAloneDecides : Obligations.OpcodeByteAloneDecides := by
  unfold Obligations.OpcodeByteAloneDecides
  refine ⟨fun op tail hlen => ?_, describe_opcode⟩
  have hcount : operandCount op ≤ tail.length := by
    rcases operandCount_cases op with hc | hc | hc <;> omega
  obtain ⟨i, rfl, hi⟩ := exists_encoding hcount
  exact ⟨i, by rw [hi, decode_encode]; rfl, rfl, by rw [describe_opcode]; rfl, by rw [describe_opcode]; rfl⟩

/-- Settles O3: each word is the encoding of the instruction beside it. -/
theorem sampleWordsDecode : Obligations.SampleWordsDecode := by
  unfold Obligations.SampleWordsDecode
  exact ⟨decode_encode (.adda (.imm 0xC6)) [], decode_encode .daa [], decode_encode (.cpx (.mem (.ext 0x1234))) [],
    decode_encode (.ror (.idx 0x05)) [], decode_encode (.bne 0xFA) [], decode_encode (.jsr (.idx 0x20)) [],
    decode_encode (.stab (.dir 0x41)) [], decode_encode (.ldx (.imm 0xABCD)) [], decode_encode (.com (.ext 0x0010)) [],
    decode_encode .wai [], decode_encode .illegal87 []⟩

/-! The illegal bytes. -/

/-- An ill-formed instruction is a row of R72, and in every state it is the fault R221 raises. -/
theorem illegal_of_invalid {i : Instr} (h : i.valid = false) :
    (i.opcode, i) ∈ Instr.illegalRows ∧ ∀ s, exec i s = (illegalOpcode i.opcode s).outcome := by
  cases i with
  | illegal00 | illegal02 | illegal03 | illegal04 | illegal05 | illegal12 | illegal13 | illegal14 | illegal15 | illegal18 | illegal1A
  | illegal1C | illegal1D | illegal1E | illegal1F | illegal21 | illegal38 | illegal3A | illegal3C | illegal3D | illegal41 | illegal42
  | illegal45 | illegal4B | illegal4E | illegal51 | illegal52 | illegal55 | illegal5B | illegal5E | illegal61 | illegal62 | illegal65
  | illegal6B | illegal71 | illegal72 | illegal75 | illegal7B | illegal83 | illegal87 | illegal8F | illegal93 | illegal9D | illegalA3
  | illegalB3 | illegalC3 | illegalC7 | illegalCC | illegalCD | illegalCF | illegalD3 | illegalDC | illegalDD | illegalE3 | illegalEC
  | illegalED | illegalF3 | illegalFC | illegalFD => exact ⟨by decide, fun _ => rfl⟩
  | _ => exact nomatch h

/-- A row of R72 is an ill-formed instruction that is encoded by its byte alone. -/
theorem invalid_of_illegal : ∀ c ∈ Instr.illegalRows, c.2.valid = false ∧ encode c.2 = [c.1] := by decide

theorem opcode_of_illegal {c : Byte × Instr} (hc : c ∈ Instr.illegalRows) : c.2.opcode = c.1 :=
  (List.cons.inj (invalid_of_illegal c hc).2).1

theorem invalid_iff_illegal {i : Instr} : i.valid = false ↔ i ∈ Instr.illegalRows.map (·.2) := by
  rw [List.mem_map]
  refine ⟨fun h => ⟨_, (illegal_of_invalid h).1, rfl⟩, ?_⟩
  rintro ⟨c, hc, rfl⟩
  exact (invalid_of_illegal c hc).1

/-- The byte of an ill-formed instruction is one of R72, and no other byte has a descriptor that says invalid (R61). -/
theorem describe_invalid_iff {op : Byte} : (describe op).invalid = true ↔ op ∈ Instr.illegalRows.map (·.1) := by
  obtain ⟨i, rfl⟩ := opcode_surjective op
  rw [List.mem_map]
  constructor
  · intro h
    rw [describe_opcode] at h
    exact ⟨_, (illegal_of_invalid (Bool.not_inj (y := false) h)).1, rfl⟩
  · rintro ⟨c, hc, he⟩
    rw [← he, ← opcode_of_illegal hc, describe_opcode, descriptorOf, (invalid_of_illegal c hc).1]
    rfl

/-- Settles O5: the ill-formed instructions are the rows of R72, one byte each. -/
theorem illegalBytesStop : Obligations.IllegalBytesStop := by
  unfold Obligations.IllegalBytesStop
  refine ⟨fun op => describe_invalid_iff, fun i => invalid_iff_illegal, fun c hc => ?_⟩
  obtain ⟨hv, he⟩ := invalid_of_illegal c hc
  refine ⟨?_, fun s => ?_⟩
  · rw [← he, ← List.append_nil (encode c.2), decode_encode]
  · rw [(illegal_of_invalid hv).2 s, opcode_of_illegal hc]
    rfl

/-! The operands of the addressing modes. -/

theorem zext16_toNat (b : Byte) : (zext16 b).toNat = b.toNat := BitVec.toNat_setWidth_of_le (by decide)

/-- Settles O20: by the form of the operand; a memory operand is read from the bus without effect. -/
theorem operandOfEachMode : Obligations.OperandOfEachMode := by
  unfold Obligations.OperandOfEachMode
  refine ⟨fun _ _ => rfl, fun _ _ => rfl, fun a s => ?direct, fun off s => ?indexed, fun _ _ => rfl,
    fun m s v h => memRead8_of_peek h, fun m s hi lo h0 h1 => ⟨_, joinBytes_toNat hi lo, memRead16_of_peek h0 h1⟩⟩
  case direct => exact zext16_toNat a
  case indexed => rw [effAddr, BitVec.toNat_add, zext16_toNat]

end Sys2Proof.Proofs

namespace Sys2Proof.Proofs

open Sys2Proof.Machine Sys2Proof.Safety Sys2Proof.Laws

/-! ## Results of the accumulator and read-modify-write shapes

The three shapes of Operands.lean give the three shapes a statement about a result has, for any operation on bytes and flags. -/

theorem computesInAcc_of_accOperand {op : Acc → Src8 → Instr} {alu : Byte → Byte → CC → Alu} {f : Byte → Byte → CC → Byte}
    {g : Byte → Byte → CC → CC} (hop : ∀ r src s, exec (op r src) s = (accOperand alu r src s).outcome)
    (hf : ∀ a m cc, (alu a m cc).value = f a m cc) (hg : ∀ a m cc, (alu a m cc).cc = g a m cc) : computesInAcc op f g := by
  intro r src s
  rw [hop, accOperand]
  refine ⟨fun m s1 h => ?_, fun e h => by rw [h]; rfl⟩
  have hc : s1.cc = s.cc := by rw [operand8_frame h]
  rw [h, bind_ok, outcome_ok, operand8_acc h, hc, hf, hg]

theorem testsAcc_of_accTest {op : Acc → Src8 → Instr} {flags g : Byte → Byte → CC → CC}
    (hop : ∀ r src s, exec (op r src) s = (accTest flags r src s).outcome) (hg : ∀ a m cc, flags a m cc = g a m cc) :
    testsAcc op g := by
  intro r src s
  rw [hop, accTest]
  refine ⟨fun m s1 h => ?_, fun e h => by rw [h]; rfl⟩
  have hc : s1.cc = s.cc := by rw [operand8_frame h]
  rw [h, bind_ok, outcome_ok, operand8_acc h, hc, hg]

theorem modifiesPlace_of_modify {op : Place → Instr} {alu : Byte → CC → Alu} {f : Byte → CC → Byte} {g : Byte → CC → CC}
    (hacc : ∀ r s, exec (op (.acc r)) s = (accModify alu r s).outcome)
    (hmem : ∀ m s, exec (op (.mem m)) s = (memModify alu m s).outcome)
    (hf : ∀ v cc, (alu v cc).value = f v cc) (hg : ∀ v cc, (alu v cc).cc = g v cc) : modifiesPlace op f g := by
  refine ⟨fun r s => by rw [hacc, accModify, outcome_ok, hf, hg], fun m s => ?_⟩
  have read {v s1} (h : memRead8 (effAddr m.toMem s) s = .ok v s1) : memModify alu m s =
      (memWrite8 (effAddr m.toMem s) (f v s.cc) s1).bind fun _ s2 => .ok () (s2.setCc (g v s.cc)) := by
    have hc : s1.cc = s.cc := by rw [memRead8_frame h]
    rw [memModify, h, bind_ok, hc, hf, hg]
  rw [hmem]
  exact ⟨fun v s1 s2 h1 h2 => by rw [read h1, h2]; rfl, fun e h => by rw [memModify, h]; rfl,
    fun v s1 e h1 h2 => by rw [read h1, h2]; rfl⟩

end Sys2Proof.Proofs

namespace Sys2Proof.Proofs

open Sys2Proof.Machine Sys2Proof.Safety Sys2Proof.Laws

/-! ## Arithmetic (40_arithmetic.md) -/

/-! The top bit of a byte, and bit 8 of a sum. -/

theorem byte_getLsbD_seven (v : Byte) : v.getLsbD 7 = decide (128 ≤ v.toNat) := v.msb_eq_decide

theorem testBit_eight {n : Nat} (h : n < 512) : n.testBit 8 = decide (256 ≤ n) := by
  rw [Nat.testBit_eq_decide_div_mod_eq, decide_eq_decide]
  omega

/-! Addition (R100). -/

theorem add8_h (a b : Byte) (cin : Bool) (cc : CC) : (add8 a b cin cc).cc.h = carryOut a b (add8 a b cin cc).value 3 :=
  (carryOut_eq_carry a b cin 3 (by decide)).symm

theorem add8_c (a b : Byte) (cin : Bool) (cc : CC) : (add8 a b cin cc).cc.c = carryOut a b (add8 a b cin cc).value 7 := by
  refine .trans ?_ (carryOut_eq_carry a b cin 7 (by decide)).symm
  rw [BitVec.carry, Nat.mod_eq_of_lt a.isLt, Nat.mod_eq_of_lt b.isLt]
  rfl

theorem add8_cc (a b : Byte) (cin : Bool) (cc : CC) : (add8 a b cin cc).cc = sumFlags a b (add8 a b cin cc).value cc := by
  rw [sumFlags, ← add8_h, ← add8_c, ← decide_byte_zero]
  rfl

/-- Settles O27: the carry formulas of R100 are the carries out of bits 3 and 7 of binary addition. -/
theorem addFunction : Obligations.AddFunction := by
  unfold Obligations.AddFunction
  intro a b cin cc r s
  have hs : s < 512 := by
    have ha := a.isLt
    have hb := b.isLt
    have hc := cin.toNat_le
    omega
  exact ⟨BitVec.toNat_ofNat s 8, add8_cc a b cin cc, (testBit_eight hs).symm, rfl⟩

/-! Subtraction (R101). -/

/-- The borrow formula of R101 is the carry formula of R100 for the complement, inverted. -/
theorem borrowOut_eq_not_carryOut (a b r : Byte) : borrowOut a b r = !carryOut a (~~~b) r 7 := by
  rw [borrowOut, carryOut, BitVec.getLsbD_not]
  cases a.getLsbD 7 <;> cases b.getLsbD 7 <;> cases r.getLsbD 7 <;> rfl

theorem sub8_c (a b : Byte) (bin : Bool) (cc : CC) : (sub8 a b bin cc).cc.c = borrowOut a b (sub8 a b bin cc).value := by
  have hr : (sub8 a b bin cc).value = _ := ofInt_difference a b bin
  rw [borrowOut_eq_not_carryOut, hr, carryOut_eq_carry a (~~~b) (!bin) 7 (by decide), BitVec.carry, BitVec.toNat_not,
    ← decide_not]
  have ha := a.isLt
  have hb := b.isLt
  refine decide_eq_decide.2 ?_
  rw [diff8]
  cases bin with
  | false =>
    rw [Bool.not_false, Bool.toNat_false, Bool.toNat_true]
    omega
  | true =>
    rw [Bool.not_true, Bool.toNat_false, Bool.toNat_true]
    omega

theorem sub8_cc (a b : Byte) (bin : Bool) (cc : CC) :
    (sub8 a b bin cc).cc = differenceFlags a b (sub8 a b bin cc).value cc := by
  rw [differenceFlags, ← sub8_c, ← decide_byte_zero]
  rfl

/-- Settles O28: the borrow of R101 is the complement of a carry, which compares the operands over the integers. -/
theorem subFunction : Obligations.SubFunction := by
  unfold Obligations.SubFunction
  intro a b bin cc r d
  refine ⟨?_, sub8_cc a b bin cc, rfl⟩
  show ((BitVec.ofInt 8 d).toNat : Int) = d % 256
  rw [BitVec.toNat_ofInt]
  exact Int.toNat_of_nonneg (Int.emod_nonneg d (by decide))

/-! The two-operand group (R103 to R110). -/

theorem addOp_value (a m : Byte) (cc : CC) : (addOp a m cc).value = a + m := by
  rw [addOp, add8_value]
  exact byte_add_zero _

theorem addOp_cc (a m : Byte) (cc : CC) : (addOp a m cc).cc = sumFlags a m (a + m) cc := by
  rw [← addOp_value a m cc]
  exact add8_cc a m false cc

theorem adcOp_cc (a m : Byte) (cc : CC) : (adcOp a m cc).cc = sumFlags a m (a + m + (if cc.c then 1 else 0)) cc := by
  rw [← add8_value a m cc.c cc]
  exact add8_cc a m cc.c cc

theorem subOp_value (a m : Byte) (cc : CC) : (subOp a m cc).value = a - m := by
  rw [subOp, sub8_value]
  exact byte_sub_zero _

theorem subOp_cc (a m : Byte) (cc : CC) : (subOp a m cc).cc = differenceFlags a m (a - m) cc := by
  rw [← subOp_value a m cc]
  exact sub8_cc a m false cc

theorem sbcOp_cc (a m : Byte) (cc : CC) : (sbcOp a m cc).cc = differenceFlags a m (a - m - (if cc.c then 1 else 0)) cc := by
  rw [← sub8_value a m cc.c cc]
  exact sub8_cc a m cc.c cc

/-- Settles O29: each instruction has the shape of its group, over `add8` or `sub8` without or with the old C. -/
theorem addSubtractCompareResults : Obligations.AddSubtractCompareResults := by
  unfold Obligations.AddSubtractCompareResults
  refine ⟨computesInAcc_of_accOperand ?add addOp_value addOp_cc,
    computesInAcc_of_accOperand ?adc (fun a m cc => add8_value a m cc.c cc) adcOp_cc,
    computesInAcc_of_accOperand ?sub subOp_value subOp_cc,
    computesInAcc_of_accOperand ?sbc (fun a m cc => sub8_value a m cc.c cc) sbcOp_cc,
    testsAcc_of_accTest ?cmp subOp_cc⟩ <;>
  · intro r _ _
    cases r <;> rfl

/-! Registers alone. -/

theorem word_add_one (w : Word) : w + 1 = BitVec.ofNat 16 (w.toNat + 1) := BitVec.add_def w 1

theorem word_sub_one (w : Word) : w - 1 = BitVec.ofNat 16 (w.toNat + 65535) := by
  rw [BitVec.sub_def, Nat.add_comm]
  rfl

theorem word_add_one_eq_zero (w : Word) : w + 1 = 0 ↔ w = 0xFFFF := by bv_omega

theorem word_sub_one_eq_zero (w : Word) : w - 1 = 0 ↔ w = 0x0001 := by bv_omega

/-- Settles O30: the results are their rules' as written; the flags of ABA, SBA, CBA, TAB and TBA are those of the operations they
share, and INX and DEX reach 0 from 0xFFFF and from 1. -/
theorem registerOnlyResults : Obligations.RegisterOnlyResults := by
  unfold Obligations.RegisterOnlyResults
  intro s
  simp only [← word_add_one, ← word_sub_one, ← word_add_one_eq_zero, ← word_sub_one_eq_zero, ← logic8_eq]
  refine ⟨?aba, ?sba, ?cba, rfl, rfl, rfl, rfl, rfl, rfl, rfl, rfl⟩
  case aba => rw [← addOp_cc, ← addOp_value s.a s.b s.cc]; rfl
  case sba => rw [← subOp_cc, ← subOp_value s.a s.b s.cc]; rfl
  case cba => rw [← subOp_cc]; rfl

/-! One operand (R111 to R113). -/

theorem neg8_value (v : Byte) (cc : CC) : (neg8 v cc).value = 0 - v := by
  rw [neg8, sub8_value]
  exact byte_sub_zero _

theorem neg8_overflow (v : Byte) :
    (((0 : Byte).getLsbD 7 != v.getLsbD 7) && ((0 - v).getLsbD 7 == v.getLsbD 7)) = decide (0 - v = 0x80) := by
  rw [Bool.eq_iff_iff]
  simp only [byte_getLsbD_seven, Bool.and_eq_true, bne_iff_ne, beq_iff_eq, ne_eq, decide_eq_decide, decide_eq_true_eq]
  bv_omega

theorem sub8_zero_c (v : Byte) (cc : CC) : (sub8 0 v false cc).cc.c = decide (0 - v ≠ 0) := by
  refine decide_eq_decide.2 ?_
  rw [diff8, Bool.toNat_false]
  bv_omega

/-- NEG overflows on 0x80 alone, and borrows unless its result is 0 (R111). -/
theorem neg8_cc (v : Byte) (cc : CC) : (neg8 v cc).cc =
    { cc with n := (0 - v).getLsbD 7, z := decide (v = 0), v := decide (0 - v = 0x80), c := decide (0 - v ≠ 0) } := by
  have hz : decide ((0 - v).toNat = 0) = decide (v = 0) := decide_eq_decide.2 (by bv_omega)
  rw [neg8, sub8_cc, differenceFlags, ← sub8_c, sub8_zero_c, ← neg8, neg8_value, neg8_overflow, hz]

/-- INC's result and its N, Z and V in the spelling of R112. -/
theorem inc8_cc (v : Byte) (cc : CC) : (inc8 v cc).cc =
    { cc with n := (v + 1).getLsbD 7, z := decide (v = 0xFF), v := decide (v = 0x7F) } := by
  have hz : v + 1 = 0 ↔ v = 0xFF := by bv_omega
  simp only [← hz]
  rfl

theorem dec8_cc (v : Byte) (cc : CC) : (dec8 v cc).cc =
    { cc with n := (v - 1).getLsbD 7, z := decide (v = 0x01), v := decide (v = 0x80) } := by
  have hz : v - 1 = 0 ↔ v = 0x01 := by bv_omega
  simp only [← hz]
  rfl

theorem byte_sub_one (v : Byte) : v - 1 = BitVec.ofNat 8 (v.toNat + 255) := by
  rw [BitVec.sub_def, Nat.add_comm]
  rfl

/-- Settles O31: each of the three is one operation on a byte, run on an accumulator or on memory. -/
theorem negIncDecResults : Obligations.NegIncDecResults := by
  unfold Obligations.NegIncDecResults
  refine ⟨modifiesPlace_of_modify ?negAcc ?negMem neg8_value neg8_cc,
    modifiesPlace_of_modify ?incAcc ?incMem (fun v _ => BitVec.add_def v 1) inc8_cc,
    modifiesPlace_of_modify ?decAcc ?decMem (fun v _ => byte_sub_one v) dec8_cc⟩
  case negAcc | incAcc | decAcc =>
    intro r _
    cases r <;> rfl
  case negMem | incMem | decMem => exact fun _ _ => rfl

/-! Decimal adjust (R114). -/

theorem daaCorrection_le (a : Byte) (h c : Bool) : daaCorrection a h c ≤ 0x66 := by
  rw [daaCorrection]
  split <;> split <;> decide

/-- The correction in the spelling of R114, the digits of A being its bits 3:0 and 7:4. -/
theorem daaCorrection_eq (a : Byte) (h c : Bool) : daaCorrection a h c =
    (if 9 < (a &&& 0x0F).toNat ∨ h = true then 6 else 0) +
      (if 9 < (a >>> 4).toNat ∨ c = true ∨ (8 < (a >>> 4).toNat ∧ 9 < (a &&& 0x0F).toNat) then 0x60 else 0) := by
  have low : (a &&& 0x0F).toNat = a.toNat % 16 := by
    rw [BitVec.toNat_and]
    exact Nat.and_two_pow_sub_one_eq_mod a.toNat 4
  have high : (a >>> 4).toNat = a.toNat / 16 := by
    rw [BitVec.toNat_ushiftRight]
    exact Nat.shiftRight_eq_div_pow a.toNat 4
  rw [low, high]
  rfl

/-- Settles O32: the correction is the rule's, and its sum with A is below 512. -/
theorem daaResult : Obligations.DaaResult := by
  unfold Obligations.DaaResult
  intro s lsn msn cf t
  have ht : t = s.a.toNat + daaCorrection s.a s.cc.h s.cc.c := by rw [daaCorrection_eq]
  have hlt : t < 512 := by
    have ha := s.a.isLt
    have hcorr := daaCorrection_le s.a s.cc.h s.cc.c
    omega
  refine ⟨BitVec.ofNat 8 t, Config.freeBit s.draws, BitVec.toNat_ofNat t 8, rfl, ?_⟩
  rw [testBit_eight hlt, ← decide_byte_zero, ht]
  rfl

/-- The correction after a sum of two pairs of decimal digits, whose flags H and C are the carries out of the two digits: 6 for a
low digit sum of 10 or more, and 0x60 for a sum of 100 or more (R114). -/
theorem daaCorrection_of_digits {r : Byte} {h c : Bool} {p q : Nat} (hp : p ≤ 18) (hq : q ≤ 18)
    (hr : r.toNat = (16 * p + q) % 256) (hh : h = decide (16 ≤ q)) (hc : c = decide (256 ≤ 16 * p + q)) :
    daaCorrection r h c = (if 10 ≤ q then 6 else 0) + (if 100 ≤ 10 * p + q then 0x60 else 0) := by
  have low : r.toNat % 16 > 9 ∨ h = true ↔ 10 ≤ q := by
    rw [hr, hh, decide_eq_true_eq]
    omega
  have high : r.toNat / 16 > 9 ∨ c = true ∨ (r.toNat / 16 > 8 ∧ r.toNat % 16 > 9) ↔ 100 ≤ 10 * p + q := by
    rw [hr, hc, decide_eq_true_eq]
    omega
  simp only [daaCorrection, low, high]

/-- The correction carries a low digit sum past 9 over to the next digit, and a sum past 99 out of the byte. -/
theorem decimal_correction {p q : Nat} (hp : p ≤ 18) (hq : q ≤ 18) :
    16 * p + q + ((if 10 ≤ q then 6 else 0) + (if 100 ≤ 10 * p + q then 0x60 else 0)) =
      256 * (if 100 ≤ 10 * p + q then 1 else 0) + (16 * ((10 * p + q) % 100 / 10) + (10 * p + q) % 10) := by
  split <;> split <;> omega

/-- DAA of such a sum gives the two low digits of the decimal sum `10 * p + q`, and C its hundreds (R114). -/
theorem daa8_of_digits {r : Alu} {p q : Nat} (hp : p ≤ 18) (hq : q ≤ 18) (hr : r.value.toNat = (16 * p + q) % 256)
    (hh : r.cc.h = decide (16 ≤ q)) (hc : r.cc.c = decide (256 ≤ 16 * p + q)) (v : Bool) :
    (daa8 r.value v r.cc).value.toNat = 16 * ((10 * p + q) % 100 / 10) + (10 * p + q) % 10 ∧
      (daa8 r.value v r.cc).cc.c = decide (100 ≤ 10 * p + q) := by
  have hcorr := daaCorrection_of_digits hp hq hr hh hc
  constructor
  · rw [daa8, hcorr, BitVec.toNat_ofNat, hr, Nat.mod_add_mod, decimal_correction hp hq, Nat.mul_add_mod]
    omega
  · show (r.cc.c || decide (256 ≤ r.value.toNat + daaCorrection r.value r.cc.h r.cc.c)) = _
    rw [hcorr, hr, hc, ← Bool.decide_or, decide_eq_decide]
    split <;> split <;> omega

/-- DAA of a sum of decimal bytes is the decimal sum (R114). -/
theorem daa8_add8_of_decimal {a m : Byte} {x y : Nat} (hx : x < 100) (hy : y < 100) (ha : a.toNat = 16 * (x / 10) + x % 10)
    (hm : m.toNat = 16 * (y / 10) + y % 10) (cc : CC) (v : Bool) :
    (daa8 (add8 a m false cc).value v (add8 a m false cc).cc).value.toNat = 16 * ((x + y) % 100 / 10) + (x + y) % 10 ∧
      (daa8 (add8 a m false cc).value v (add8 a m false cc).cc).cc.c = decide (100 ≤ x + y) := by
  have hsum : sum8 a m false = 16 * (x / 10 + y / 10) + (x % 10 + y % 10) := by
    rw [sum8, Bool.toNat_false]
    omega
  have hxy : x + y = 10 * (x / 10 + y / 10) + (x % 10 + y % 10) := by omega
  have hh : (add8 a m false cc).cc.h = decide (16 ≤ x % 10 + y % 10) := by
    refine decide_eq_decide.2 ?_
    rw [Bool.toNat_false]
    omega
  rw [hxy]
  refine daa8_of_digits (by omega) (by omega) ?_ hh ?_ v
  · rw [← hsum]
    exact BitVec.toNat_ofNat _ 8
  · rw [← hsum]
    rfl

/-- Settles O33: the operand is an immediate, whose read cannot fault, and DAA adjusts the sum ADDA leaves. -/
theorem daaAfterAddIsDecimal : Obligations.DaaAfterAddIsDecimal := by
  unfold Obligations.DaaAfterAddIsDecimal
  intro s x y hx hy ha
  have hm : (BitVec.ofNat 8 (16 * (y / 10) + y % 10)).toNat = 16 * (y / 10) + y % 10 := by
    rw [BitVec.toNat_ofNat]
    omega
  exact ⟨_, _, rfl, rfl, daa8_add8_of_decimal hx hy ha hm s.cc (Config.freeBit s.draws)⟩

/-! Compare index (R115). -/

theorem byteHi_toNat (w : Word) : (byteHi w).toNat = w.toNat / 256 := by
  rw [byteHi_eq_ofNat, BitVec.toNat_ofNat]
  omega

theorem byteHi_getLsbD_seven (w : Word) : (byteHi w).getLsbD 7 = w.getLsbD 15 := by
  simp [byteHi]

theorem byteHi_eq_and_byteLo_eq_iff (w u : Word) : byteHi w = byteHi u ∧ byteLo w = byteLo u ↔ w = u := by
  refine ⟨fun ⟨hi, lo⟩ => ?_, fun h => by rw [h]; exact ⟨rfl, rfl⟩⟩
  rw [← joinBytes_byteHi_byteLo w, hi, lo, joinBytes_byteHi_byteLo]

theorem cpxFlags_eq (x m : Word) (cc : CC) :
    let d := (x.toNat / 256 + 256 - m.toNat / 256) % 256
    cpxFlags x m cc = { cc with
      n := decide (128 ≤ d), z := decide (x = m)
      v := (x.getLsbD 15 != m.getLsbD 15) && (decide (128 ≤ d) == m.getLsbD 15) } := by
  intro d
  have hd : (byteHi x - byteHi m).getLsbD 7 = decide (128 ≤ d) := by
    have hx := x.isLt
    have hm := m.isLt
    rw [byte_getLsbD_seven, BitVec.toNat_sub, byteHi_toNat, byteHi_toNat, decide_eq_decide]
    omega
  have hz : (decide (byteHi x - byteHi m = 0) && decide (byteLo x - byteLo m = 0)) = decide (x = m) := by
    rw [← Bool.decide_and, decide_eq_decide, ← byteHi_eq_and_byteLo_eq_iff, sub_eq_zero, sub_eq_zero]
  rw [← hd, ← hz, ← byteHi_getLsbD_seven x, ← byteHi_getLsbD_seven m]
  rfl

/-- Settles O34: the flags of the difference of the high bytes, over an operand read that leaves X and the flags. -/
theorem cpxResult : Obligations.CpxResult := by
  unfold Obligations.CpxResult
  intro src s
  have hcpx : exec (.cpx src) s = ((operand16 src s).bind fun m s1 => .ok () (s1.setCc (cpxFlags s1.x m s1.cc))).outcome := rfl
  rw [hcpx]
  refine ⟨fun m s1 h => ?_, fun e h => by rw [h]; rfl⟩
  have hx : s1.x = s.x := by rw [operand16_frame h]
  have hc : s1.cc = s.cc := by rw [operand16_frame h]
  rw [h, bind_ok, outcome_ok, hx, hc, cpxFlags_eq]

end Sys2Proof.Proofs

namespace Sys2Proof.Proofs

open Sys2Proof.Machine Sys2Proof.Safety Sys2Proof.Laws

/-! ## Shifts and rotates (41_shift_rotate.md)

A byte moved by one bit as a number doubled or halved, and the bit that enters at the free end as a number added. -/

theorem byte_getLsbD_zero (v : Byte) : v.getLsbD 0 = decide (v.toNat % 2 = 1) := Nat.testBit_zero v.toNat

theorem byte_shiftLeft_one (v : Byte) : v <<< 1 = BitVec.ofNat 8 (2 * v.toNat) := by
  rw [BitVec.shiftLeft_eq_mul_twoPow, BitVec.ofNat_mul, BitVec.ofNat_toNat, BitVec.setWidth_eq, BitVec.mul_comm]
  rfl

theorem byte_shiftRight_one (v : Byte) : v >>> 1 = BitVec.ofNat 8 (v.toNat / 2) := by
  rw [← Nat.pow_one 2, ← Nat.shiftRight_eq_div_pow, ← BitVec.toNat_ushiftRight, BitVec.ofNat_toNat, BitVec.setWidth_eq]

/-- Bit 7 of a byte alone, as the number ASR keeps of it. -/
theorem byte_and_0x80 (v : Byte) : v &&& 0x80 = BitVec.ofNat 8 (128 * (decide (128 ≤ v.toNat)).toNat) := by
  have h : v &&& 0x80 = if v.getLsbD 7 then 0x80 else 0 := BitVec.and_twoPow v 7
  rw [h, byte_getLsbD_seven]
  cases decide (128 ≤ v.toNat) <;> rfl

/-- The bit that enters at bit 0 meets a 0 there, so joining it is adding it. -/
theorem byte_shiftLeft_one_or (v : Byte) (b : Bool) :
    v <<< 1 ||| BitVec.ofNat 8 b.toNat = BitVec.ofNat 8 (2 * v.toNat + b.toNat) := by
  have h : 2 * v.toNat + b.toNat = 2 * v.toNat ||| b.toNat := Nat.two_pow_add_eq_or_of_lt (i := 1) b.toNat_lt v.toNat
  rw [h, BitVec.ofNat_or, byte_shiftLeft_one]

/-- The bit that enters at bit 7 meets a 0 there, so joining it is adding its 128. -/
theorem byte_shiftRight_one_or (v : Byte) (b : Bool) :
    v >>> 1 ||| BitVec.ofNat 8 (128 * b.toNat) = BitVec.ofNat 8 (v.toNat / 2 + 128 * b.toNat) := by
  have hv : v.toNat / 2 < 2 ^ 7 := Nat.div_lt_of_lt_mul v.isLt
  have h : 128 * b.toNat + v.toNat / 2 = 128 * b.toNat ||| v.toNat / 2 := Nat.two_pow_add_eq_or_of_lt hv b.toNat
  rw [Nat.add_comm, h, BitVec.ofNat_or, byte_shiftRight_one, BitVec.or_comm]

/-! The five operations in that spelling. -/

theorem asl8_eq (v : Byte) (cc : CC) :
    asl8 v cc = shiftResult (BitVec.ofNat 8 (2 * v.toNat)) (decide (128 ≤ v.toNat)) cc := by
  rw [asl8, byte_shiftLeft_one, byte_getLsbD_seven]

theorem asr8_eq (v : Byte) (cc : CC) : asr8 v cc =
    shiftResult (BitVec.ofNat 8 (v.toNat / 2 + (if 128 ≤ v.toNat then 128 else 0))) (decide (v.toNat % 2 = 1)) cc := by
  have h : (if 128 ≤ v.toNat then 128 else 0) = 128 * (decide (128 ≤ v.toNat)).toNat := by
    split <;> simp [*]
  rw [asr8, byte_and_0x80, byte_shiftRight_one_or, byte_getLsbD_zero, h]

theorem lsr8_eq (v : Byte) (cc : CC) :
    lsr8 v cc = shiftResult (BitVec.ofNat 8 (v.toNat / 2)) (decide (v.toNat % 2 = 1)) cc := by
  rw [lsr8, byte_shiftRight_one, byte_getLsbD_zero]

theorem rol8_eq (v : Byte) (cc : CC) :
    rol8 v cc = shiftResult (BitVec.ofNat 8 (2 * v.toNat + cc.c.toNat)) (decide (128 ≤ v.toNat)) cc := by
  have hc : (BitVec.ofBool cc.c).setWidth 8 = BitVec.ofNat 8 cc.c.toNat := by cases cc.c <;> rfl
  rw [rol8, hc, byte_shiftLeft_one_or, byte_getLsbD_seven]

theorem ror8_eq (v : Byte) (cc : CC) :
    ror8 v cc = shiftResult (BitVec.ofNat 8 (v.toNat / 2 + 128 * cc.c.toNat)) (decide (v.toNat % 2 = 1)) cc := by
  have hc : (BitVec.ofBool cc.c).setWidth 8 <<< 7 = BitVec.ofNat 8 (128 * cc.c.toNat) := by cases cc.c <;> rfl
  rw [ror8, hc, byte_shiftRight_one_or, byte_getLsbD_zero]

/-- An instruction that runs a shift to `f` with the bit `out` shifted out has the result and the flags of R130. -/
theorem modifiesPlace_of_shift {op : Place → Instr} {alu : Byte → CC → Alu} {f : Byte → CC → Byte} {out : Byte → Bool}
    (hacc : ∀ r s, exec (op (.acc r)) s = (accModify alu r s).outcome)
    (hmem : ∀ m s, exec (op (.mem m)) s = (memModify alu m s).outcome)
    (halu : ∀ v cc, alu v cc = shiftResult (f v cc) (out v) cc) :
    modifiesPlace op f (fun v cc => shiftFlags (f v cc) (out v) cc) :=
  modifiesPlace_of_modify hacc hmem (fun v cc => by rw [halu]; rfl) (fun v cc => by rw [halu, shiftResult_cc])

/-- Settles O35: each of the five is one shift of a byte, run on an accumulator or on memory. -/
theorem shiftAndRotateResults : Obligations.ShiftAndRotateResults := by
  unfold Obligations.ShiftAndRotateResults
  refine ⟨modifiesPlace_of_shift ?aslAcc ?aslMem asl8_eq, modifiesPlace_of_shift ?asrAcc ?asrMem asr8_eq,
    modifiesPlace_of_shift ?lsrAcc ?lsrMem lsr8_eq, modifiesPlace_of_shift ?rolAcc ?rolMem rol8_eq,
    modifiesPlace_of_shift ?rorAcc ?rorMem ror8_eq⟩
  case aslAcc | asrAcc | lsrAcc | rolAcc | rorAcc =>
    intro r _
    cases r <;> rfl
  case aslMem | asrMem | lsrMem | rolMem | rorMem => exact fun _ _ => rfl

end Sys2Proof.Proofs

namespace Sys2Proof.Proofs

open Sys2Proof.Machine Sys2Proof.Safety Sys2Proof.Laws

/-! ## Branches, jumps, calls (42_branch_jump.md) -/

/-! The order of two bytes after a difference of them (R101, R141). -/

/-- A difference borrows exactly when the first byte is below the second as an unsigned number. -/
theorem differenceFlags_c (a m : Byte) (cc : CC) :
    (differenceFlags a m (a - m) cc).c = decide (a.toNat < m.toNat) := by
  rw [← subOp_cc]
  refine decide_eq_decide.2 ?_
  rw [diff8, Bool.toNat_false]
  omega

/-- A difference is zero exactly when the bytes are equal. -/
theorem differenceFlags_z (a m : Byte) (cc : CC) : (differenceFlags a m (a - m) cc).z = decide (a = m) := by
  rw [← subOp_cc]
  show decide ((subOp a m cc).value = 0) = _
  rw [subOp_value, decide_eq_decide]
  exact sub_eq_zero

/-- A byte as a signed number, by its top bit. -/
theorem byte_toInt (v : Byte) : v.toInt = if 128 ≤ v.toNat then (v.toNat : Int) - 256 else v.toNat := by
  rw [BitVec.toInt_eq_msb_cond, BitVec.msb_eq_decide]
  simp

/-- N corrected by the overflow of a difference is N for operands of one sign, which cannot overflow, and the sign of the first for
operands of two. -/
theorem sign_xor_overflow (a m r : Bool) : (r ^^ ((a != m) && (r == m))) = if a = m then r else a := by
  revert a m r
  decide

/-- The corrected sign is that of the difference over the integers: the first byte is below the second as a signed number. -/
theorem differenceFlags_n_xor_v (a m : Byte) (cc : CC) :
    ((differenceFlags a m (a - m) cc).n ^^ (differenceFlags a m (a - m) cc).v) = decide (a.toInt < m.toInt) := by
  have ha := a.isLt
  have hm := m.isLt
  dsimp only [differenceFlags]
  rw [sign_xor_overflow, byte_getLsbD_seven, byte_getLsbD_seven, byte_getLsbD_seven, BitVec.toNat_sub, byte_toInt, byte_toInt]
  split
  next same =>
    rw [decide_eq_decide] at same ⊢
    omega
  next differ =>
    rw [decide_eq_decide] at differ ⊢
    omega

/-- Flags that tell the two orders and equality order the operands under every condition of R141. -/
theorem ordersOperands_of_flags {a m : Byte} {cc : CC} (hc : cc.c = decide (a.toNat < m.toNat))
    (hz : cc.z = decide (a = m)) (hs : (cc.n ^^ cc.v) = decide (a.toInt < m.toInt)) : ordersOperands a m cc := by
  have unsigned : a = m ↔ a.toNat = m.toNat := BitVec.toNat_inj.symm
  have signed : a = m ↔ a.toInt = m.toInt := BitVec.toInt_inj.symm
  simp only [ordersOperands, condHolds, hc, hs, hz, ← decide_not, ← Bool.decide_and, ← Bool.decide_or, decide_eq_decide]
  refine ⟨?hi, ?ls, not_lt, trivial, trivial, trivial, not_lt, trivial, ?gt, ?le⟩
  case hi | ls => rw [unsigned]; omega
  case gt | le => rw [signed]; omega

theorem ordersOperands_differenceFlags (a m : Byte) (cc : CC) : ordersOperands a m (differenceFlags a m (a - m) cc) :=
  ordersOperands_of_flags (differenceFlags_c a m cc) (differenceFlags_z a m cc) (differenceFlags_n_xor_v a m cc)

/-- Settles O37: each of the four leaves the flags of the difference of the operands as they were. -/
theorem branchesAfterCompare : Obligations.BranchesAfterCompare := by
  unfold Obligations.BranchesAfterCompare
  obtain ⟨-, -, sub, -, cmp⟩ := addSubtractCompareResults
  constructor
  · intro r src s s1 t m hm h
    rw [(cmp r src s).1 m s1 hm, (sub r src s).1 m s1 hm] at h
    obtain h | h := h <;> obtain rfl := Host.Outcome.next.inj h <;> exact ordersOperands_differenceFlags _ _ _
  · intro s t h
    obtain ⟨-, sba, cba, -⟩ := registerOnlyResults s
    rw [cba, sba] at h
    obtain h | h := h <;> obtain rfl := Host.Outcome.next.inj h <;> exact ordersOperands_differenceFlags _ _ _

/-! Targets and conditions (R140, R141). -/

/-- The signed offset added modulo 2^16 (R7, R140). -/
theorem word_add_sext16 (pc : Word) (rel : Byte) : pc + sext16 rel = BitVec.ofInt 16 (pc.toNat + rel.toInt) := by
  rw [BitVec.ofInt_add, BitVec.ofInt_natCast, BitVec.ofNat_toNat, BitVec.setWidth_eq]
  rfl

theorem exec_branchOf (cond : Cond) (rel : Byte) (s : State) : exec (Instr.branchOf cond rel) s =
    .next (if condHolds cond s.cc then s.setPc (BitVec.ofInt 16 (s.pc.toNat + rel.toInt)) else s) := by
  have h : exec (Instr.branchOf cond rel) s = (branch cond rel s).outcome := by cases cond <;> rfl
  rw [h, branch_eq, word_add_sext16, outcome_ok]

theorem condHolds_ge (cc : CC) : condHolds .ge cc = (cc.n == cc.v) := Bool.not_not _

theorem condHolds_gt (cc : CC) : condHolds .gt cc = (!cc.z && (cc.n == cc.v)) := congrArg (!cc.z && ·) (Bool.not_not _)

/-- Settles O36: the conditions are those of R141, N and V being equal where they do not differ. -/
theorem branchResults : Obligations.BranchResults := by
  unfold Obligations.BranchResults
  intro s rel
  simp only [List.forall_mem_cons, exec_branchOf]
  exact ⟨rfl, rfl, rfl, rfl, rfl, rfl, rfl, rfl, rfl, rfl, rfl, by rw [condHolds_ge], rfl, by rw [condHolds_gt], rfl, nofun⟩

/-! Operations followed by a change of registers. -/

section
variable {α : Type} {r : Res α} {k : α → State → State}

theorem thenRegs_of_ok {v : α} {t : State} (h : r = .ok v t) : thenRegs r k = .next (k v t) := thenRegs_eq_next.2 ⟨v, t, h, rfl⟩

theorem thenRegs_of_fault {e : Fault} (h : r = .fault e) : thenRegs r k = .fault e := by
  rw [h]
  rfl

end

/-! Calls (R157, R159). -/

theorem exec_bsr (rel : Byte) (s : State) : exec (.bsr rel) s =
    thenRegs (push16 s.pc s) fun _ t => { t with pc := BitVec.ofInt 16 (s.pc.toNat + rel.toInt) } := by
  rw [← word_add_sext16]
  rfl

theorem exec_jsr (ea : IdxExt) (s : State) :
    exec (.jsr ea) s = thenRegs (push16 s.pc s) fun _ t => { t with pc := effAddr ea.toMem s } := rfl

/-- A word pushed onto RAM stands low byte at the old SP and high byte below it (R42). -/
theorem push16_stores_at {s : State} (v : Word) (h0 : storable s s.sp) (h1 : storable s (s.sp - 1)) :
    ∃ t, push16 v s = .ok () t ∧ peek s.sp t = some (byteLo v) ∧ peek (s.sp - 1) t = some (byteHi v) ∧
      t = { s with mem := t.mem, sp := s.sp - 2 } := by
  obtain ⟨t, ht, hsp, hhi, hlo, he⟩ := push16_stores v h0 h1
  have below : t.sp + 1 = s.sp - 1 := by bv_omega
  rw [below] at hhi
  rw [hsp, BitVec.sub_add_cancel] at hlo
  rw [hsp] at he
  exact ⟨t, ht, hlo, hhi, he⟩

/-- Settles O38: both push PC, then go to a target taken from the state before the push. -/
theorem callResults : Obligations.CallResults := by
  unfold Obligations.CallResults
  simp only [exec_bsr, exec_jsr, ← byteHi_eq_ofNat, ← byteLo_eq_ofNat]
  intro s
  refine ⟨fun h0 h1 => ?_, fun t h => ⟨fun _ => thenRegs_of_ok h, fun _ => thenRegs_of_ok h⟩,
    fun e h => ⟨fun _ => thenRegs_of_fault h, fun _ => thenRegs_of_fault h⟩⟩
  obtain ⟨t, ht, hlo, hhi, he⟩ := push16_stores_at s.pc h0 h1
  exact ⟨t, hlo, hhi, push16_peek ht, he, fun _ => thenRegs_of_ok ht, fun _ => thenRegs_of_ok ht⟩

/-! Jumps and returns (R158, R160). -/

/-- The indexed address as a sum modulo 2^16 (R66). -/
theorem effAddr_idx (off : Byte) (s : State) : effAddr (.idx off) s = BitVec.ofNat 16 (s.x.toNat + off.toNat) := by
  rw [effAddr, BitVec.add_def, zext16_toNat]

theorem exec_jmp (ea : IdxExt) (s : State) : exec (.jmp ea) s = .next { s with pc := effAddr ea.toMem s } := rfl

theorem exec_rts (s : State) : exec .rts s = thenRegs (pull16 s) fun v t => { t with pc := v } := rfl

theorem joinBytes_eq_ofNat (hi lo : Byte) : joinBytes hi lo = BitVec.ofNat 16 (256 * hi.toNat + lo.toNat) := by
  rw [← joinBytes_toNat, BitVec.ofNat_toNat, BitVec.setWidth_eq]

/-- Settles O39: JMP is its effective address, and RTS is the word pull, which on RAM and ROM gives the joined bytes. -/
theorem jumpAndReturnResults : Obligations.JumpAndReturnResults := by
  unfold Obligations.JumpAndReturnResults
  refine ⟨fun off s => ?indexed, fun addr s => exec_jmp (.ext addr) s, fun s hi lo h0 h1 => ?pulled,
    fun s => ⟨fun _ _ => thenRegs_of_ok, fun _ => thenRegs_of_fault⟩⟩
  case indexed =>
    rw [exec_jmp, ← effAddr_idx]
    rfl
  case pulled =>
    rw [exec_rts, thenRegs_of_ok (pull16_of_peek h0 h1), joinBytes_eq_ofNat]
    rfl

end Sys2Proof.Proofs

namespace Sys2Proof.Proofs

open Sys2Proof.Machine Sys2Proof.Safety Sys2Proof.Laws

/-! ## Loads, stores, the stack instructions (43_load_store_transfer.md) -/

/-! Byte loads and logic (R170, R190 to R193). -/

/-- Settles O40: each has the shape of its group, and its flags are those of the byte it gives. -/
theorem loadAndLogicResults : Obligations.LoadAndLogicResults := by
  unfold Obligations.LoadAndLogicResults
  refine ⟨computesInAcc_of_accOperand (alu := ldaOp) ?lda (fun _ _ _ => rfl) fun _ m cc => logic8_eq m cc,
    computesInAcc_of_accOperand (alu := andOp) ?and (fun _ _ _ => rfl) fun a m cc => logic8_eq (a &&& m) cc,
    computesInAcc_of_accOperand (alu := oraOp) ?ora (fun _ _ _ => rfl) fun a m cc => logic8_eq (a ||| m) cc,
    computesInAcc_of_accOperand (alu := eorOp) ?eor (fun _ _ _ => rfl) fun a m cc => logic8_eq (a ^^^ m) cc,
    testsAcc_of_accTest (flags := bitFlags) ?bit fun a m cc => logic8_eq (a &&& m) cc⟩ <;>
  · intro r _ _
    cases r <;> rfl

/-! Word loads (R172, R173). -/

theorem exec_ldx (src : Src16) (s : State) : exec (.ldx src) s =
    thenRegs (operand16 src s) fun m t => { t with x := m, cc := t.cc.logic16 m } := rfl

theorem exec_lds (src : Src16) (s : State) : exec (.lds src) s =
    thenRegs (operand16 src s) fun m t => { t with sp := m, cc := t.cc.logic16 m } := rfl

/-- Settles O42: the operand read leaves the flags, which then take N and Z of the word. -/
theorem wordLoadResults : Obligations.WordLoadResults := by
  unfold Obligations.WordLoadResults
  simp only [exec_ldx, exec_lds]
  intro src s
  refine ⟨fun m s1 h => ?_, fun e h => ⟨thenRegs_of_fault h, thenRegs_of_fault h⟩⟩
  have hc : s1.cc = s.cc := by rw [operand16_frame h]
  rw [← hc, ← logic16_eq]
  exact ⟨thenRegs_of_ok h, thenRegs_of_ok h⟩

/-! Stores (R171, R174, R175). -/

theorem exec_staOf (r : Acc) (m : Mem) (s : State) : exec (Instr.staOf r m) s =
    thenRegs (memWrite8 (effAddr m s) (s.acc r) s) fun _ t => t.setCc (nzClearV (s.acc r) s.cc) := by
  rw [← logic8_eq]
  cases r <;> rfl

/-- Settles O41: STA is one bus write and a change of flags; on RAM the write leaves every byte but its own. -/
theorem staResults : Obligations.StaResults := by
  unfold Obligations.StaResults
  simp only [exec_staOf]
  intro r m s
  refine ⟨fun hs => ?_, fun _ => thenRegs_of_ok, fun _ => thenRegs_of_fault⟩
  obtain ⟨t, ht, hp, he⟩ := memWrite8_stores (s.acc r) hs
  have kept := memWrite8_peek ht
  exact ⟨_, thenRegs_of_ok ht, hp, kept, by rw [he]; rfl⟩

/-- STX of X and STS of SP are one word write and a change of flags. -/
theorem exec_wordStore {m : Mem} {s : State} {c : Instr × Word} (hc : c ∈ [(Instr.stx m, s.x), (Instr.sts m, s.sp)]) :
    exec c.1 s = thenRegs (memWrite16 (effAddr m s) c.2 s) fun _ t => t.setCc (nzClearV16 c.2 s.cc) := by
  rw [← logic16_eq]
  obtain rfl | rfl := List.mem_pair.1 hc <;> rfl

/-- A word write leaves every byte of RAM and ROM but the two at its addresses as it was (R37). -/
theorem memWrite16_peek {s t : State} {addr v : Word} {u : Unit} (h : memWrite16 addr v s = .ok u t) (a : Word)
    (h0 : a ≠ addr) (h1 : a ≠ addr + 1) : peek a t = peek a s :=
  (effect_memWrite16 h).peek a fun ha => (List.mem_pair.1 ha).elim h0 h1

/-- Settles O43: both are one word write and a change of flags; on RAM the write leaves every byte but its two. -/
theorem wordStoreResults : Obligations.WordStoreResults := by
  unfold Obligations.WordStoreResults
  simp only [← byteHi_eq_ofNat, ← byteLo_eq_ofNat]
  intro m s c hc
  rw [exec_wordStore hc]
  refine ⟨fun h0 h1 => ?_, fun _ => thenRegs_of_ok, fun _ => thenRegs_of_fault⟩
  obtain ⟨t, ht, hhi, hlo, he⟩ := memWrite16_stores c.2 h0 h1
  have kept := memWrite16_peek ht
  exact ⟨_, thenRegs_of_ok ht, hhi, hlo, kept, by rw [he]; rfl⟩

/-! The stack instructions (R180, R181). -/

/-- A push is a write at SP, after which SP is one less than before it (R40). -/
theorem push8_eq (v : Byte) (s : State) :
    push8 v s = (memWrite8 s.sp v s).bind fun _ t => .ok () (t.setSp (s.sp - 1)) := by
  rw [push8]
  cases h : memWrite8 s.sp v s with
  | fault e => rfl
  | ok u t =>
    have hsp : t.sp = s.sp := by rw [memWrite8_frame h]
    rw [bind_ok, bind_ok, hsp]

/-- A pull is a read above SP, which does not see SP, and SP is one more (R41). -/
theorem pull8_eq (s : State) : pull8 s = (memRead8 (s.sp + 1) s).bind fun v t => .ok v (t.setSp (s.sp + 1)) := by
  have read := memRead8_onto (s := s) (u := s.setSp (s.sp + 1)) ⟨rfl, rfl, rfl, rfl⟩ (s.sp + 1)
  rw [pull8, read]
  cases h : memRead8 (s.sp + 1) s with
  | fault e => rfl
  | ok v t =>
    rw [readOnto_ok, bind_ok, memRead8_frame h]
    rfl

theorem pull8_of_memRead8 {s t : State} {v : Byte} (h : memRead8 (s.sp + 1) s = .ok v t) :
    pull8 s = .ok v (t.setSp (s.sp + 1)) := by
  rw [pull8_eq, h, bind_ok]

theorem exec_pshOf (r : Acc) (s : State) : exec (Instr.pshOf r) s = (push8 (s.acc r) s).outcome := by
  cases r <;> rfl

theorem exec_pulOf (r : Acc) (s : State) : exec (Instr.pulOf r) s = thenRegs (pull8 s) fun v t => t.setAcc r v := by
  cases r <;> rfl

/-- Settles O44: PSH is the push of the accumulator, and PUL the pull, which on RAM and ROM reads the byte above SP. -/
theorem pushPullResults : Obligations.PushPullResults := by
  unfold Obligations.PushPullResults
  simp only [exec_pshOf, exec_pulOf]
  intro r s
  refine ⟨fun hs => ?pushed, fun t h => ?push, fun e h => ?pushFault, fun v h => thenRegs_of_ok (pull8_of_peek h),
    fun v t h => thenRegs_of_ok (pull8_of_memRead8 h), fun e h => thenRegs_of_fault ?pullFault⟩
  case pushed =>
    obtain ⟨t, ht, hp, he⟩ := push8_eq_of_storable (s.acc r) hs
    exact ⟨t, outcome_eq_next.2 ht, hp, push8_peek ht, he⟩
  case push | pushFault =>
    rw [push8_eq, h]
    rfl
  case pullFault =>
    rw [pull8_eq, h]
    rfl

end Sys2Proof.Proofs

namespace Sys2Proof.Proofs

open Sys2Proof.Machine Sys2Proof.Safety Sys2Proof.Laws

/-! ## Logic, test, clear (44_logic.md) -/

/-- The change of registers matters only where the operation succeeds. -/
theorem thenRegs_congr {α : Type} {r : Res α} {k k' : α → State → State} (h : ∀ v t, r = .ok v t → k v t = k' v t) :
    thenRegs r k = thenRegs r k' := by
  cases r with
  | fault e => rfl
  | ok v t => exact congrArg Host.Outcome.next (h v t rfl)

/-! COM and TST (R194, R195). -/

theorem byte_not (v : Byte) : ~~~v = BitVec.ofNat 8 (255 - v.toNat) := by bv_omega

theorem com8_cc (v : Byte) (cc : CC) : (com8 v cc).cc = { nzClearV (~~~v) cc with c := true } := by
  rw [← logic8_eq]
  rfl

theorem tstFlags_eq (v : Byte) (cc : CC) : tstFlags v cc = { nzClearV v cc with c := false } := by
  rw [← logic8_eq]
  rfl

theorem exec_tstOf_acc (r : Acc) (s : State) : exec (Instr.tstOf (.acc r)) s = .next (s.setCc (tstFlags (s.acc r) s.cc)) := by
  cases r <;> rfl

/-- TST of memory is one read, which leaves the flags it then writes as they were. -/
theorem exec_tstOf_mem (m : IdxExt) (s : State) : exec (Instr.tstOf (.mem m)) s =
    thenRegs (memRead8 (effAddr m.toMem s) s) fun v t => t.setCc (tstFlags v s.cc) :=
  thenRegs_congr fun v t h => by rw [memRead8_frame h]

/-- Settles O45: COM is one operation on a byte, run on an accumulator or on memory, and TST is a change of flags, after one read
where the byte is in memory. -/
theorem comAndTstResults : Obligations.ComAndTstResults := by
  unfold Obligations.ComAndTstResults
  simp only [exec_tstOf_mem, ← tstFlags_eq]
  refine ⟨modifiesPlace_of_modify ?comAcc (fun _ _ => rfl) (fun v _ => byte_not v) com8_cc, exec_tstOf_acc,
    fun m s => ⟨fun _ _ => thenRegs_of_ok, fun _ => thenRegs_of_fault⟩⟩
  intro r _
  cases r <;> rfl

/-! CLR (R196). -/

theorem exec_clrOf_acc (r : Acc) (s : State) : exec (Instr.clrOf (.acc r)) s = .next ((s.setAcc r 0).setCc (clrFlags s.cc)) := by
  cases r <;> rfl

/-- `s1` is the state in which CLR writes its zero: the one the read of the operand leaves, where the configuration asks for that
read (R5). -/
def ClrWritesFrom (m : IdxExt) (s s1 : State) : Prop :=
  if s.config.clrReadsOperand then ∃ v, memRead8 (effAddr m.toMem s) s = .ok v s1 else s1 = s

/-- On RAM the read has no effect, so in both settings CLR writes in its first state. -/
theorem clrWritesFrom_self {m : IdxExt} {s : State} (h : storable s (effAddr m.toMem s)) : ClrWritesFrom m s s := by
  obtain ⟨r, hr, ho, -⟩ := h
  unfold ClrWritesFrom
  split
  · exact ⟨_, memRead8_ram hr ho⟩
  · rfl

/-- CLR of memory is one write of zero, and neither it nor the read before it touches the flags that are then cleared. -/
theorem exec_clr_of_writesFrom {m : IdxExt} {s s1 : State} (h : ClrWritesFrom m s s1) : exec (.clr m) s =
    thenRegs (memWrite8 (effAddr m.toMem s) 0 s1) fun _ t => t.setCc (clrFlags s.cc) := by
  show execClr m s = _
  unfold ClrWritesFrom at h
  rw [execClr]
  split at h
  next hc =>
    obtain ⟨v, hr⟩ := h
    rw [if_pos hc, hr]
    exact thenRegs_congr fun _ t hw => by rw [memWrite8_frame hw, memRead8_frame hr]
  next hc =>
    rw [if_neg hc, h]
    exact thenRegs_congr fun _ t hw => by rw [memWrite8_frame hw]

theorem exec_clr_of_readFault {m : IdxExt} {s : State} {e : Fault} (hc : s.config.clrReadsOperand = true)
    (h : memRead8 (effAddr m.toMem s) s = .fault e) : exec (.clr m) s = .fault e := by
  show execClr m s = _
  rw [execClr, if_pos hc, h]
  rfl

/-- Settles O46: CLR of memory is one write of zero and a change of flags; on RAM the write is one in the first state and leaves
every byte but its own. -/
theorem clrResults : Obligations.ClrResults := by
  unfold Obligations.ClrResults
  refine ⟨exec_clrOf_acc, fun m s => ⟨fun hs => ?ram, fun hc _ => exec_clr_of_readFault hc, fun s1 h => ?bus⟩⟩
  case ram =>
    obtain ⟨t, ht, hp, he⟩ := memWrite8_stores 0 hs
    have kept := memWrite8_peek ht
    rw [exec_clr_of_writesFrom (clrWritesFrom_self hs)]
    exact ⟨_, thenRegs_of_ok ht, hp, kept, by rw [he]; rfl⟩
  case bus =>
    rw [exec_clr_of_writesFrom h]
    exact ⟨fun _ => thenRegs_of_ok, fun _ => thenRegs_of_fault⟩

end Sys2Proof.Proofs

namespace Sys2Proof.Proofs

open Sys2Proof.Machine Sys2Proof.Safety Sys2Proof.Laws

/-! ## The interrupt instructions, a waiting step and the return (45_cc_system.md) -/

theorem outcome_eq_fault {r : Res Unit} {e : Fault} : r.outcome = .fault e ↔ r = .fault e := by
  cases r with
  | ok u t => exact ⟨(nomatch ·), (nomatch ·)⟩
  | fault f => exact ⟨fun h => congrArg Res.fault (Host.Outcome.fault.inj h), fun h => congrArg Res.outcome h⟩

section
variable {s t : State} {vector : Word} {nmi wait : Bool} {o : Host.Outcome State Fault Refusal}

/-! The second half of an entry (R225). -/

/-- On RAM and ROM the two vector reads give the word there and leave the state as it was. -/
theorem vectorsThrough_of_readable (h : vectorsThrough vector nmi wait s o) (h0 : readable s vector)
    (h1 : readable s (vector + 1)) : ∃ pc, wordAt s vector pc ∧
      o = .next { s with cc := { s.cc with i := true }, pc := pc, nmiPending := nmi, waiWait := wait } := by
  obtain ⟨hi, hhi⟩ := Option.isSome_iff_exists.1 h0
  obtain ⟨lo, hlo⟩ := Option.isSome_iff_exists.1 h1
  obtain ⟨hok, -⟩ := h
  exact ⟨joinBytes hi lo, ⟨hi, lo, hhi, hlo, rfl⟩, hok _ _ (memRead16_of_peek hhi hlo)⟩

/-- Vectoring leaves SP and every byte of RAM and ROM, wherever the vector is. -/
theorem vectorsThrough_keeps (h : vectorsThrough vector nmi wait s o) (ho : o = .next t) :
    t.sp = s.sp ∧ ∀ a, peek a t = peek a s := by
  obtain ⟨hok, hfault⟩ := h
  cases hr : memRead16 vector s with
  | fault e => exact nomatch ho.symm.trans (hfault e hr)
  | ok pc u =>
    obtain rfl := Host.Outcome.next.inj (ho.symm.trans (hok pc u hr))
    rw [memRead16_frame hr]
    exact ⟨rfl, peek_congr rfl rfl⟩

/-! The whole entry (R224, R225). -/

/-- On a stack in RAM the seven writes go through, and vectoring starts where the frame stands. -/
theorem vectorsThrough_of_entersThrough (h : entersThrough vector nmi wait s o) (hs : frameStorable s) :
    ∃ t, t = { s with mem := t.mem, sp := s.sp - 7 } ∧ frameStacked s t ∧ vectorsThrough vector nmi wait t o := by
  obtain ⟨t, ht, he, hf⟩ := stackAll_of_storable hs
  rw [stackAll_eq] at ht
  obtain ⟨_, u, hw, hu⟩ := bind_eq_ok.1 ht
  obtain rfl := (Res.ok.inj hu).2
  obtain ⟨hok, -⟩ := h
  exact ⟨_, he, hf, hok u hw⟩

/-- A state that differs from `s` in the elements of an entry only (R225). -/
theorem entryFrame_of_eq (h : t = { s with
    mem := t.mem, sp := t.sp, pc := t.pc, cc := t.cc, nmiPending := t.nmiPending, waiWait := t.waiWait }) : entryFrame s t := by
  rw [h]
  exact ⟨rfl, rfl, rfl, rfl, rfl, rfl, rfl, rfl, rfl⟩

/-- On a stack in RAM with a vector in RAM or ROM an entry completes, and what it leaves is given whole. -/
theorem entersThrough_of_storable (h : entersThrough vector nmi wait s o) (hs : frameStorable s)
    (h0 : readable s vector) (h1 : readable s (vector + 1)) :
    ∃ t, o = .next t ∧ frameStacked s t ∧ t.sp = s.sp - 7 ∧ t.cc = { s.cc with i := true } ∧ wordAt t vector t.pc ∧
      t.nmiPending = nmi ∧ t.waiWait = wait ∧ entryFrame s t := by
  obtain ⟨t, he, hf, hv⟩ := vectorsThrough_of_entersThrough h hs
  have hc : t.config = s.config := by rw [he]
  obtain ⟨pc, hpc, ho⟩ := vectorsThrough_of_readable hv ((readable_congr hc _).2 h0) ((readable_congr hc _).2 h1)
  exact ⟨_, ho, hf, by rw [he], by rw [he], hpc, rfl, rfl, entryFrame_of_eq (by rw [he])⟩

/-- An entry that completes from a stack in RAM has left the frame there, wherever the vector is. -/
theorem frameStacked_of_entersThrough (h : entersThrough vector nmi wait s o) (hs : frameStorable s) (ho : o = .next t) :
    frameStacked s t ∧ t.sp = s.sp - 7 := by
  obtain ⟨u, he, ⟨stacked, others⟩, hv⟩ := vectorsThrough_of_entersThrough h hs
  obtain ⟨hsp, hp⟩ := vectorsThrough_keeps hv ho
  refine ⟨⟨fun c hc => (hp c.1).trans (stacked c hc), fun a ha => (hp a).trans (others a ha)⟩, ?_⟩
  rw [hsp, he]

/-! The interrupt arms of the step (R226): an entry, after which the machine does not wait. -/

theorem takeInterrupt_eq (vector : Word) (s : State) :
    takeInterrupt vector s = thenRegs (enter vector (!s.waiWait) s) fun _ t => t.setWaiWait false := rfl

theorem takeInterrupt_vectorsThrough (vector : Word) (hw : s.waiWait = true) :
    vectorsThrough vector s.nmiPending false s (takeInterrupt vector s) := by
  obtain ⟨hok, hfault⟩ := vectorTo_vectorsThrough vector s
  rw [takeInterrupt_eq, hw]
  exact ⟨fun pc u hr => thenRegs_of_ok (outcome_eq_next.1 (hok pc u hr)),
    fun e hr => thenRegs_of_fault (outcome_eq_fault.1 (hfault e hr))⟩

theorem takeInterrupt_entersThrough (vector : Word) (hw : s.waiWait = false) :
    entersThrough vector s.nmiPending false s (takeInterrupt vector s) := by
  obtain ⟨hok, hfault⟩ := enter_entersThrough vector s
  rw [takeInterrupt_eq, hw]
  refine ⟨fun t ht => ?_, fun e ht => thenRegs_of_fault (outcome_eq_fault.1 (hfault e ht))⟩
  obtain ⟨hread, hreadFault⟩ := hok t ht
  exact ⟨fun pc u hr => thenRegs_of_ok (outcome_eq_next.1 (hread pc u hr)),
    fun e hr => thenRegs_of_fault (outcome_eq_fault.1 (hreadFault e hr))⟩

/-- An IRQ is taken when a port is latched and I is clear (R223). -/
theorem irqTaken_iff : irqTaken s = true ↔ (s.portA.irqLatched = true ∨ s.portB.irqLatched = true) ∧ s.cc.i = false := by
  simp [irqTaken, irq, State.port]

theorem step_of_nmi (hf : s.fault = none) (hn : s.nmiPending = true) :
    step s = takeInterrupt nmiVector (s.setNmiPending false) := by
  rw [step, hf, if_pos hn]

theorem step_of_irq (hf : s.fault = none) (hn : s.nmiPending = false) (hi : irqTaken s = true) :
    step s = takeInterrupt irqVector s := by
  simp [step, hf, hn, hi]

theorem step_of_idle (hf : s.fault = none) (hn : s.nmiPending = false) (hi : irqTaken s = false) (hw : s.waiWait = true) :
    step s = .next s := by
  simp [step, hf, hn, hi, hw]

end

/-- Settles O9: the arms of R226 in their order, an interrupt being taken without the stacking. -/
theorem waitingStep : Obligations.WaitingStep := by
  unfold Obligations.WaitingStep
  intro s hf hw
  refine ⟨fun hn => ?nmi, fun hn hl hi => ?irq, fun hn hno => ?idle⟩
  case nmi =>
    have hv : vectorsThrough 0xFFFC false false (s.setNmiPending false) (step s) := by
      rw [step_of_nmi hf hn]
      exact takeInterrupt_vectorsThrough _ hw
    exact ⟨vectorsThrough_of_readable (s := s.setNmiPending false) hv, hv⟩
  case irq =>
    have hv : vectorsThrough 0xFFF8 s.nmiPending false s (step s) := by
      rw [step_of_irq hf hn (irqTaken_iff.2 ⟨hl, hi⟩)]
      exact takeInterrupt_vectorsThrough _ hw
    exact ⟨vectorsThrough_of_readable hv, hn ▸ hv⟩
  case idle =>
    refine step_of_idle hf hn ?_ hw
    rw [← Bool.not_eq_true, irqTaken_iff]
    obtain ⟨ha, hb⟩ | hi := hno
    · simp [ha, hb]
    · simp [hi]

/-! SWI (R209). -/

/-- SWI is an entry that leaves both interrupt bits. -/
theorem exec_swi_entersThrough (s : State) : entersThrough 0xFFFA s.nmiPending s.waiWait s (exec .swi s) :=
  enter_entersThrough swiVector s

/-- Settles O48: SWI is the entry of R225, whose result on RAM follows. -/
theorem swiEntry : Obligations.SwiEntry := by
  unfold Obligations.SwiEntry
  intro s
  exact ⟨entersThrough_of_storable (exec_swi_entersThrough s), exec_swi_entersThrough s⟩

/-! WAI (R211). -/

theorem exec_wai_of_motorola {s : State} (hm : s.config.waiMode = .motorola) :
    exec .wai s = thenRegs (stackAll s) fun _ t => t.setWaiWait true := by
  show execWai s = _
  rw [execWai, hm]
  rfl

theorem exec_wai_of_fault {s : State} (hm : s.config.waiMode = .fault) :
    exec .wai s = .fault (.unimplementedOpcode 0x3E (s.pc - 1)) := by
  show execWai s = _
  rw [execWai, hm]
  rfl

/-- Settles O49: with a wait, WAI is the stacking and the wait bit; the stacking is the frame's seven writes. -/
theorem waiResult : Obligations.WaiResult := by
  unfold Obligations.WaiResult
  intro s
  refine ⟨fun hm => ?_, exec_wai_of_fault⟩
  rw [exec_wai_of_motorola hm]
  refine ⟨fun hs => ?ram, fun t h => ?writes, fun e h => ?writeFault⟩
  case ram =>
    obtain ⟨t, ht, he, hf⟩ := stackAll_of_storable hs
    refine ⟨_, thenRegs_of_ok ht, hf, ?_, ?_, ?_, ?_, rfl, entryFrame_of_eq ?_⟩ <;> rw [he] <;> rfl
  case writes | writeFault =>
    rw [stackAll_eq, h]
    rfl

/-! RTI (R210, R229). -/

theorem exec_rti (s : State) : exec .rti s = (returnFromInterrupt s).outcome := rfl

/-- The addresses RTI pulls from. -/
def pullAddrs (sp : Word) : List Word := [sp + 1, sp + 2, sp + 3, sp + 4, sp + 5, sp + 6, sp + 7]

/-- RTI on RAM and ROM. -/
theorem exec_rti_of_peek {s : State} {c b a xh xl ph pl : Byte}
    (h : (pullAddrs s.sp).map (peek · s) = [c, b, a, xh, xl, ph, pl].map some) : exec .rti s = .next { s with
      cc := CC.ofByte c, b := b, a := a, x := joinBytes xh xl, pc := joinBytes ph pl, sp := s.sp + 7 } := by
  simp only [pullAddrs, List.map_cons, List.map_nil, List.cons.injEq, and_true] at h
  obtain ⟨h1, h2, h3, h4, h5, h6, h7⟩ := h
  rw [exec_rti, returnFromInterrupt_of_peek h1 h2 h3 h4 h5 h6 h7, outcome_ok]

/-- Settles O50: RTI is the seven reads, the first byte read as the condition codes. -/
theorem rtiResult : Obligations.RtiResult := by
  unfold Obligations.RtiResult
  intro s
  refine ⟨fun _ _ _ _ _ _ _ => exec_rti_of_peek, fun c b a xh xl ph pl t h => ?reads, fun e h => ?readFault⟩
  case reads | readFault =>
    rw [exec_rti, returnFromInterrupt_eq, h]
    rfl

/-! The return undoes an entry. -/

/-- RTI pulls from the addresses the frame was stacked at, in the same order (R210, R224). -/
theorem pullAddrs_of_stacked (s : State) : pullAddrs (s.sp - 7) = (frameBytes s).map (·.1) := by
  simp only [pullAddrs, frameBytes, List.map_cons, List.map_nil, List.cons.injEq, and_true]
  refine ⟨?_, ?_, ?_, ?_, ?_, ?_, ?_⟩ <;> bv_omega

/-- With the frame of `s` above SP, RTI gives back the registers of `s`. -/
theorem exec_rti_of_frame {s u : State} (hsp : u.sp = s.sp - 7) (h : ∀ c ∈ frameBytes s, peek c.1 u = some c.2) :
    exec .rti u = .next { u with cc := s.cc, b := s.b, a := s.a, x := s.x, pc := s.pc, sp := s.sp } := by
  have hp : (pullAddrs u.sp).map (peek · u) = ((frameBytes s).map (·.2)).map some := by
    rw [hsp, pullAddrs_of_stacked, List.map_map, List.map_map]
    exact List.map_congr_left h
  rw [exec_rti_of_peek hp, ofByte_toByte, joinBytes_byteHi_byteLo, joinBytes_byteHi_byteLo, hsp, BitVec.sub_add_cancel]

/-- WAI that completes from a stack in RAM has left the frame there. -/
theorem exec_wai_frameStacked {s t : State} (hs : frameStorable s) (h : exec .wai s = .next t) :
    frameStacked s t ∧ t.sp = s.sp - 7 := by
  obtain ⟨-, t1, h1, rfl⟩ := execWai_cases h
  obtain ⟨t2, h2, -, hf⟩ := stackAll_of_storable hs
  obtain rfl := (Res.ok.inj (h1.symm.trans h2)).2
  exact ⟨hf, by rw [stackAll_frame h1]; rfl⟩

/-- A step that takes an interrupt, not waiting, from a stack in RAM has left the frame there. -/
theorem step_frameStacked {s t : State} (hs : frameStorable s) (hw : s.waiWait = false)
    (hi : s.nmiPending = true ∨ irqTaken s = true) (h : step s = .next t) : frameStacked s t ∧ t.sp = s.sp - 7 := by
  cases hf : s.fault with
  | some f => exact nomatch (step_of_fault hf).symm.trans h
  | none =>
    cases hn : s.nmiPending with
    | true =>
      rw [step_of_nmi hf hn] at h
      exact frameStacked_of_entersThrough (s := s.setNmiPending false) (takeInterrupt_entersThrough _ hw) hs h
    | false =>
      rw [step_of_irq hf hn (hi.resolve_left (by simp [hn]))] at h
      exact frameStacked_of_entersThrough (takeInterrupt_entersThrough _ hw) hs h

/-- Settles O51: each of the three leaves the frame of `s` in memory and SP seven below, and RTI pulls that frame. -/
theorem returnUndoesInterrupt : Obligations.ReturnUndoesInterrupt := by
  unfold Obligations.ReturnUndoesInterrupt
  intro s t u hs ht hsp hp
  have entered : frameStacked s t ∧ t.sp = s.sp - 7 := by
    obtain h | h | ⟨hw, hi, h⟩ := ht
    · exact frameStacked_of_entersThrough (exec_swi_entersThrough s) hs h
    · exact exec_wai_frameStacked hs h
    · exact step_frameStacked hs hw hi h
  obtain ⟨⟨stacked, -⟩, htsp⟩ := entered
  exact exec_rti_of_frame (hsp.trans htsp) fun c hc => (hp c hc).trans (stacked c hc)

end Sys2Proof.Proofs

namespace Sys2Proof.Proofs

open Sys2Proof.Machine Sys2Proof.Safety Sys2Proof.Laws

/-! ## Faults, interrupts, the step and the devices (60_exceptions.md) -/

/-! The interrupt entries (R224 to R228). -/

/-- Settles O7: the NMI arm of the step is an entry from the state with the latch clear. -/
theorem nmiEntry : Obligations.NmiEntry := by
  unfold Obligations.NmiEntry
  refine ⟨fun _ => rfl, fun s hf hn hw => ?_⟩
  have he : entersThrough 0xFFFC false false (s.setNmiPending false) (step s) := by
    rw [step_of_nmi hf hn]
    exact takeInterrupt_entersThrough nmiVector hw
  exact ⟨entersThrough_of_storable (s := s.setNmiPending false) he, he⟩

/-- Settles O8: the IRQ arm of the step is an entry, the NMI latch being clear. -/
theorem irqEntry : Obligations.IrqEntry := by
  unfold Obligations.IrqEntry
  intro s hf hn hw hl hi
  have he : entersThrough 0xFFF8 s.nmiPending false s (step s) := by
    rw [step_of_irq hf hn (irqTaken_iff.2 ⟨hl, hi⟩)]
    exact takeInterrupt_entersThrough irqVector hw
  rw [hn] at he
  exact ⟨entersThrough_of_storable he, he⟩

/-! The normal arm of the step (R226). -/

/-- The bytes of an instruction at PC in RAM or ROM are fetched as that instruction, and PC moves past them (R14, R62). -/
theorem fetchInstr_of_encode {s : State} {i : Instr}
    (hp : ∀ k, k < (encode i).length → peek (s.pc + BitVec.ofNat 16 k) s = (encode i)[k]?) :
    fetchInstr s = .ok i (s.setPc (s.pc + BitVec.ofNat 16 (encode i).length)) := by
  have hc := operandCount_opcode i
  have at0 {op : Byte} (h : peek (s.pc + BitVec.ofNat 16 0) s = some op) : peek s.pc s = some op := by
    rwa [← BitVec.add_zero s.pc]
  cases rowShape i with
  | inherent count operand decodes =>
    rw [encode, operand] at hp ⊢
    rw [fetchInstr_of_count_zero (at0 (hp 0 (by simp))) (hc.trans count), decodes]
    rfl
  | byte b row =>
    rw [row.encode_eq b b] at hp ⊢
    rw [fetchInstr_of_count_one (at0 (hp 0 (by simp))) (hp 1 (by simp)) (hc.trans (row.count b)), row.decodeWith_opcode]
    rfl
  | word w row =>
    rw [row.encode_eq w w] at hp ⊢
    rw [fetchInstr_of_count_two (at0 (hp 0 (by simp))) (hp 1 (by simp)) (hp 2 (by simp)) (hc.trans (row.count w)),
      row.decodeWith_opcode, joinBytes_byteHi_byteLo]
    rfl

theorem fetchExecute_of_ok {s t : State} {i : Instr} (h : fetchInstr s = .ok i t) : fetchExecute s = exec i t := by
  rw [fetchExecute, h]

theorem fetchExecute_of_fault {s : State} {e : Fault} (h : fetchInstr s = .fault e) : fetchExecute s = .fault e := by
  rw [fetchExecute, h]

/-- Settles O6: the step is the normal arm, and bytes that decode are the encoding of their instruction. -/
theorem stepRunsDecodedInstruction : Obligations.StepRunsDecodedInstruction := by
  unfold Obligations.StepRunsDecodedInstruction
  intro s hf hn hi hw
  rw [step_normal hf hn hi hw]
  refine ⟨fun bytes i hd hp => ?_, fun i t => fetchExecute_of_ok, fun e => fetchExecute_of_fault⟩
  obtain rfl : bytes = encode i := (eq_encode_of_decode hd).trans (List.append_nil _)
  exact fetchExecute_of_ok (fetchInstr_of_encode hp)

/-! The reasons an instruction stops (R220 to R222). -/

/-- An operation that fails does so at a bus access (R220). -/
def FailsAtBus {α : Type} (r : Res α) : Prop := ∀ e, r = .fault e → ∃ addr kind, e = .busFault addr kind

theorem FailsAtBus.ok {α : Type} {v : α} {s : State} : FailsAtBus (.ok v s) := fun _ h => nomatch h

theorem FailsAtBus.fault {α : Type} {addr : Word} {kind : AccessKind} : FailsAtBus (.fault (.busFault addr kind) : Res α) :=
  fun _ h => ⟨addr, kind, (Res.fault.inj h).symm⟩

theorem FailsAtBus.bind {α β : Type} {r : Res α} {k : α → State → Res β} (hr : FailsAtBus r)
    (hk : ∀ v t, FailsAtBus (k v t)) : FailsAtBus (r.bind k) := by
  cases r with
  | ok v t => exact hk v t
  | fault f => exact fun e he => hr e (congrArg Res.fault (Res.fault.inj he))

/-- An operation followed by a change of registers. -/
theorem FailsAtBus.thenOk {α β : Type} {r : Res α} {f : α → State → β} {k : α → State → State} (hr : FailsAtBus r) :
    FailsAtBus (r.bind fun v t => .ok (f v t) (k v t)) :=
  hr.bind fun _ _ => .ok

section
variable (s : State)

theorem failsAtBus_memRead8 (addr : Word) : FailsAtBus (memRead8 addr s) := by
  unfold memRead8
  split
  · exact .fault
  · split <;> exact .ok

theorem failsAtBus_memWrite8 (addr : Word) (v : Byte) : FailsAtBus (memWrite8 addr v s) := by
  unfold memWrite8
  split
  · exact .fault
  · split
    · split
      · exact .ok
      · exact .fault
      · exact .ok
    · exact .fault

theorem failsAtBus_memRead16 (addr : Word) : FailsAtBus (memRead16 addr s) :=
  (failsAtBus_memRead8 s _).bind fun _ t => (failsAtBus_memRead8 t _).thenOk

theorem failsAtBus_memWrite16 (addr v : Word) : FailsAtBus (memWrite16 addr v s) :=
  (failsAtBus_memWrite8 s _ _).bind fun _ t => failsAtBus_memWrite8 t _ _

theorem failsAtBus_operand8 (src : Src8) : FailsAtBus (operand8 src s) := by
  cases src with
  | imm v => exact .ok
  | mem m => exact failsAtBus_memRead8 s _

theorem failsAtBus_operand16 (src : Src16) : FailsAtBus (operand16 src s) := by
  cases src with
  | imm v => exact .ok
  | mem m => exact failsAtBus_memRead16 s _

theorem failsAtBus_push8 (v : Byte) : FailsAtBus (push8 v s) := (failsAtBus_memWrite8 s _ v).thenOk

theorem failsAtBus_pull8 : FailsAtBus (pull8 s) := failsAtBus_memRead8 _ _

theorem failsAtBus_push16 (v : Word) : FailsAtBus (push16 v s) :=
  (failsAtBus_push8 s _).bind fun _ t => failsAtBus_push8 t _

theorem failsAtBus_pull16 : FailsAtBus (pull16 s) :=
  (failsAtBus_pull8 s).bind fun _ t => (failsAtBus_pull8 t).thenOk

theorem failsAtBus_stackAll : FailsAtBus (stackAll s) :=
  (failsAtBus_push16 s _).bind fun _ t1 => (failsAtBus_push16 t1 _).bind fun _ t2 => (failsAtBus_push8 t2 _).bind fun _ t3 =>
    (failsAtBus_push8 t3 _).bind fun _ t4 => failsAtBus_push8 t4 _

theorem failsAtBus_vectorTo (vector : Word) : FailsAtBus (vectorTo vector s) := (failsAtBus_memRead16 _ vector).thenOk

theorem failsAtBus_enter (vector : Word) : FailsAtBus (enter vector true s) :=
  (failsAtBus_stackAll s).bind fun _ t => failsAtBus_vectorTo t vector

theorem failsAtBus_returnFromInterrupt : FailsAtBus (returnFromInterrupt s) :=
  (failsAtBus_pull8 s).bind fun _ _ => (failsAtBus_pull8 _).bind fun _ _ => (failsAtBus_pull8 _).bind fun _ _ =>
    (failsAtBus_pull16 _).bind fun _ _ => (failsAtBus_pull16 _).thenOk

end

/-- An outcome is that of an operation that fails at a bus access, if at all. -/
def StopsAtBus (o : Host.Outcome State Fault Refusal) : Prop := ∃ r : Res Unit, FailsAtBus r ∧ o = r.outcome

theorem FailsAtBus.outcome {r : Res Unit} (h : FailsAtBus r) : StopsAtBus r.outcome := ⟨r, h, rfl⟩

theorem FailsAtBus.thenRegs {α : Type} {r : Res α} {k : α → State → State} (h : FailsAtBus r) : StopsAtBus (thenRegs r k) :=
  h.thenOk.outcome

theorem outcome_ne_refused (r : Res Unit) (e : Refusal) : r.outcome ≠ .refused e := by
  cases r <;> exact (nomatch ·)

theorem stopsAtBus_execClr (ea : IdxExt) (s : State) : StopsAtBus (execClr ea s) := by
  refine FailsAtBus.outcome (FailsAtBus.thenOk ?_)
  split
  · exact (failsAtBus_memRead8 s _).bind fun _ t => failsAtBus_memWrite8 t _ _
  · exact failsAtBus_memWrite8 s _ _

/-- An operation of a shape stops at a bus access, unless it is the fault of an illegal byte or WAI. -/
theorem ExecShape.stopsAtBus {s : State} {st ld : List Word} {o : Host.Outcome State Fault Refusal} (hs : ExecShape s st ld o) :
    (st = [] ∧ ld = [] ∧ ∃ op, o = (illegalOpcode op s).outcome) ∨ (st.length = 7 ∧ ld = []) ∨ StopsAtBus o := by
  cases hs with
  | illegal op => exact .inl ⟨rfl, rfl, op, rfl⟩
  | wait => exact .inr (.inl ⟨rfl, rfl⟩)
  | @registers t _ => exact .inr (.inr (FailsAtBus.ok (v := ()) (s := t)).outcome)
  | accOperand f r src => exact .inr (.inr (failsAtBus_operand8 s src).thenOk.outcome)
  | accTest f r src => exact .inr (.inr (failsAtBus_operand8 s src).thenOk.outcome)
  | accModify f r => exact .inr (.inr FailsAtBus.ok.outcome)
  | memModify f ea =>
    exact .inr (.inr ((failsAtBus_memRead8 s _).bind fun _ t => (failsAtBus_memWrite8 t _ _).thenOk).outcome)
  | clear ea => exact .inr (.inr (stopsAtBus_execClr ea s))
  | load8 addr _ => exact .inr (.inr (failsAtBus_memRead8 s addr).thenRegs)
  | load16 src _ => exact .inr (.inr (failsAtBus_operand16 s src).thenRegs)
  | store8 addr v _ => exact .inr (.inr (failsAtBus_memWrite8 s addr v).thenRegs)
  | store16 addr v _ => exact .inr (.inr (failsAtBus_memWrite16 s addr v).thenRegs)
  | branch cond rel => rw [branch_eq]; exact .inr (.inr FailsAtBus.ok.outcome)
  | call target => exact .inr (.inr (failsAtBus_push16 s _).thenOk.outcome)
  | push v => exact .inr (.inr (failsAtBus_push8 s v).outcome)
  | pull _ => exact .inr (.inr (failsAtBus_pull8 s).thenRegs)
  | pullWord _ => exact .inr (.inr (failsAtBus_pull16 s).thenRegs)
  | interrupt vector => exact .inr (.inr (failsAtBus_enter s vector).outcome)
  | returnFromInterrupt => exact .inr (.inr (failsAtBus_returnFromInterrupt s).outcome)

/-- Only WAI stores seven bytes and reads none (R211). -/
theorem eq_wai_of_addrs {i : Instr} {s : State} (hs : (storedAddrs i s).length = 7) (hl : loadedAddrs i s = []) : i = .wai := by
  cases i with
  | wai => rfl
  | swi => exact nomatch hl
  | _ => exact nomatch hs

/-- An instruction of the 6800 other than WAI stops at a bus access only: it completes where it makes none. -/
theorem exec_stopsAtBus {i : Instr} (hv : i.WellFormed) (hw : i ≠ .wai) (s : State) : StopsAtBus (exec i s) := by
  rcases (exec_shape i s).stopsAtBus with ⟨hs, hl, op, ho⟩ | ⟨hs, hl⟩ | h
  · obtain ⟨t, ht⟩ := exec_completes (s := s) hv (fun h => absurd h hw) (by simp [hs]) (by simp [hl])
    exact nomatch ht.symm.trans ho
  · exact absurd (eq_wai_of_addrs hs hl) hw
  · exact h

/-- WAI stops at a bus access where the machine has the wait, and is unimplemented where it has none (R211, R222). -/
theorem exec_wai_stops (s : State) : StopsAtBus (exec .wai s) ∨
    (s.config.waiMode = .fault ∧ exec .wai s = .fault (.unimplementedOpcode 0x3E (s.pc - 1))) := by
  cases hm : s.config.waiMode with
  | motorola => rw [exec_wai_of_motorola hm]; exact .inl (failsAtBus_stackAll s).thenRegs
  | fault => exact .inr ⟨rfl, exec_wai_of_fault hm⟩

/-- Settles O53: an ill-formed instruction is its own fault, WAI may be unimplemented, and every other stops at the bus. -/
theorem stopsAreNamedFaults : Obligations.StopsAreNamedFaults := by
  unfold Obligations.StopsAreNamedFaults
  intro i s
  have stops : StopsAtBus (exec i s) ∨ (i.valid = false ∧ exec i s = .fault (.illegalOpcode i.opcode (s.pc - 1))) ∨
      (i = .wai ∧ s.config.waiMode = .fault ∧ exec i s = .fault (.unimplementedOpcode 0x3E (s.pc - 1))) := by
    by_cases hw : i = .wai
    · subst hw
      exact (exec_wai_stops s).imp_right fun h => .inr ⟨rfl, h⟩
    · cases hv : i.valid with
      | false => exact .inr (.inl ⟨rfl, (illegal_of_invalid hv).2 s⟩)
      | true => exact .inl (exec_stopsAtBus hv hw s)
  rcases stops with ⟨r, hr, ho⟩ | ⟨hv, ho⟩ | ⟨hi, hm, ho⟩ <;> rw [ho]
  · exact ⟨outcome_ne_refused r, fun f hf => .inl (hr f (outcome_eq_fault.1 hf))⟩
  · exact ⟨fun _ => (nomatch ·), fun f hf => .inr (.inl ⟨hv, (Host.Outcome.fault.inj hf).symm⟩)⟩
  · exact ⟨fun _ => (nomatch ·), fun f hf => .inr (.inr ⟨hi, hm, (Host.Outcome.fault.inj hf).symm⟩)⟩

/-! The registers of the PIA (R235 to R243). -/

/-- The offset of a port's data and direction registers in the window (R235). -/
def dataOffset (p : PortId) : Word := if p = .a then 0 else 2

/-- The offset of a port's control register in the window (R235). -/
def controlOffset (p : PortId) : Word := if p = .a then 1 else 3

theorem piaRead_data (p : PortId) (s : State) : piaRead (dataOffset p).toNat s =
    if dataSelected (s.port p) then (portData (s.port p), s.setPort p (portAcknowledge (s.port p)))
    else ((s.port p).directionRegister, s) := by
  cases p <;> rfl

theorem piaRead_control (p : PortId) (s : State) : piaRead (controlOffset p).toNat s = ((s.port p).controlRegister, s) := by
  cases p <;> rfl

theorem piaWrite_data (p : PortId) (v : Byte) (s : State) : piaWrite (dataOffset p).toNat v s =
    s.setPort p (if dataSelected (s.port p) then { s.port p with outputRegister := v }
      else { s.port p with directionRegister := v }) := by
  rw [apply_ite (s.setPort p)]
  cases p <;> rfl

theorem piaWrite_control (p : PortId) (v : Byte) (s : State) : piaWrite (controlOffset p).toNat v s = writeControl p v s := by
  cases p <;> rfl

section
variable {s : State} {r : Region} {addr offset : Word} (hr : resolve s.config addr = some r) (ho : r.owner = .pia)
  (ha : addr = r.lo + offset)
include hr ho ha

/-- A bus read in the window is a read of the register at the offset from its start (R33, R235). -/
theorem memRead8_offset : memRead8 addr s = .ok (piaRead offset.toNat s).1 (piaRead offset.toNat s).2 := by
  rw [memRead8_pia hr ho, ha, add_sub_cancel_left]

/-- A bus write in the window is a write of the register at the offset from its start (R33, R235). -/
theorem memWrite8_offset (hw : r.writable = true) (v : Byte) : memWrite8 addr v s = .ok () (piaWrite offset.toNat v s) := by
  rw [memWrite8_pia v hr hw ho, ha, add_sub_cancel_left]

end

/-- A region that has taken a write is writable (R35). -/
theorem writable_of_memWrite8 {s t : State} {r : Region} {addr : Word} {v : Byte} {u : Unit}
    (hr : resolve s.config addr = some r) (h : memWrite8 addr v s = .ok u t) : r.writable = true := by
  by_contra hw
  exact nomatch h.symm.trans (memWrite8_unwritable v hr (Bool.eq_false_of_not_eq_true hw))

theorem portAcknowledge_bit (q : Port) (k : Nat) :
    (portAcknowledge q).controlRegister.getLsbD k = (decide (k < 6) && q.controlRegister.getLsbD k) := by
  show (q.controlRegister &&& 0x3F).getLsbD k = _
  by_cases hk : k < 8
  · interval_cases k <;> simp
  · simp [BitVec.getLsbD_of_ge _ k (not_lt.1 hk)]

/-- A bit of the data register is the output register's on a driven pin and the input latch's on any other (R237). -/
theorem portData_bit (q : Port) {k : Nat} (hk : k < 8) : (portData q).getLsbD k =
    if q.directionRegister.getLsbD k then q.outputRegister.getLsbD k else q.inputLatch.getLsbD k := by
  rw [portData, BitVec.getLsbD_or, BitVec.getLsbD_and, BitVec.getLsbD_and, BitVec.getLsbD_not, decide_eq_true hk]
  cases q.directionRegister.getLsbD k <;> simp

theorem setPort_eq (s : State) (p : PortId) (q : Port) :
    s.setPort p q = { s with portA := (s.setPort p q).portA, portB := (s.setPort p q).portB } := by
  cases p <;> rfl

/-- Settles O21: a read of either register of a port, the data register's with its acknowledgement. -/
theorem piaRegisterRead : Obligations.PiaRegisterRead := by
  unfold Obligations.PiaRegisterRead
  intro s r p addr hr ho
  refine ⟨fun ha => ?control, fun ha hd => ?direction, fun ha hd => ?data⟩
  case control => rw [memRead8_offset (offset := controlOffset p) hr ho ha, piaRead_control]
  case direction =>
    rw [memRead8_offset (offset := dataOffset p) hr ho ha, piaRead_data, dataSelected, hd]
    rfl
  case data =>
    refine ⟨s.setPort p (portAcknowledge (s.port p)), ?_, fun k => ?_, ?_, fun q hq => setPort_port_other s p q _ hq,
      setPort_eq s p _⟩
    · rw [memRead8_offset (offset := dataOffset p) hr ho ha, piaRead_data, dataSelected, if_pos hd]
      rfl
    · rw [setPort_port, portAcknowledge_bit]
    · rw [setPort_port]
      rfl

/-- Settles O22: a write of either register of a port. -/
theorem piaRegisterWrite : Obligations.PiaRegisterWrite := by
  unfold Obligations.PiaRegisterWrite
  intro s r p addr v hr ho hw
  refine ⟨fun ha => ?data, fun ha => ?control⟩
  case data => rw [memWrite8_offset (offset := dataOffset p) hr ho ha hw, piaWrite_data, dataSelected]
  case control =>
    have hp : (writeControl p v s).port p = portControl (s.port p) v := by rw [writeControl_port, if_pos rfl]
    refine ⟨writeControl p v s, ?_, ?_, ?_, ?_, fun q hq => ?_, writeControl_frame p v s⟩
    · rw [memWrite8_offset (offset := controlOffset p) hr ho ha hw, piaWrite_control]
    · rw [hp]; exact portControl_bit _ v
    · rw [hp]; exact portControl_c2 _ v
    · rw [hp]; rfl
    · rw [writeControl_port, if_neg hq]

/-! The clock of the decoder (R243). -/

theorem writeControl_a_cvsd (v : Byte) (s : State) : (writeControl .a v s).cvsd = s.cvsd := rfl

/-- A control-register write of port B feeds the decoder when it raises C2 from 0 to 1, and leaves it otherwise. -/
theorem writeControl_b_cvsd (v : Byte) (s : State) : (writeControl .b v s).cvsd =
    if s.portB.controlLine2 = false ∧ (portControl s.portB v).controlLine2 = true then
      cvsdAddBit s.config s.portA.controlLine2 s.cvsd
    else s.cvsd := by
  simp only [writeControl, true_and]
  exact apply_ite State.cvsd _ _ _

theorem piaWrite_data_cvsd (p : PortId) (v : Byte) (s : State) : (piaWrite (dataOffset p).toNat v s).cvsd = s.cvsd := by
  rw [piaWrite_data, setPort_cvsd]

/-- Settles O23: by the register written, and for port B's control register by where C2 goes (R242). -/
theorem risingEdgeFeedsDecoder : Obligations.RisingEdgeFeedsDecoder := by
  unfold Obligations.RisingEdgeFeedsDecoder
  intro s t r addr v hr ho h
  have written {offset : Word} (ha : addr = r.lo + offset) : t = piaWrite offset.toNat v s :=
    (Res.ok.inj (h.symm.trans (memWrite8_offset hr ho ha (writable_of_memWrite8 hr h) v))).2
  have controlB (ha : addr = r.lo + 3) : t = writeControl .b v s := (written ha).trans (piaWrite_control .b v s)
  refine ⟨fun ha h2 h5 h4 h3 => ?rises, fun ha hno => ?stays, fun ha => ?others⟩
  case rises => rw [controlB ha, writeControl_b_cvsd, portControl_c2, h2, h5, h4, h3]; rfl
  case stays =>
    rw [controlB ha, writeControl_b_cvsd, portControl_c2, if_neg]
    rintro ⟨h2, hc⟩
    rw [h2] at hc hno
    rcases hno with h | h | h | h
    · exact nomatch h
    all_goals rw [h] at hc; simp at hc
  case others =>
    rcases ha with ha | ha | ha
    · rw [written (offset := 0) (ha.trans (BitVec.add_zero r.lo).symm)]; exact piaWrite_data_cvsd .a v s
    · rw [written ha]; exact writeControl_a_cvsd v s
    · rw [written ha]; exact piaWrite_data_cvsd .b v s

/-! A driven byte (R245). -/

theorem drivePort_port (p : PortId) (v : Byte) (s : State) : (drivePort p v s).port p = { s.port p with
    inputLatch := v, controlRegister := (s.port p).controlRegister ||| 0x80, irqLatched := true } := setPort_port s p _

/-- Settles O14: the driven port is given whole, and a read of its data register merges it and acknowledges (R237, R240). -/
theorem drivePortThenRead : Obligations.DrivePortThenRead := by
  unfold Obligations.DrivePortThenRead
  intro s p v t
  have hp := drivePort_port p v s
  refine ⟨rfl, by rw [irq, hp], by rw [hp], by rw [hp], fun q hq => setPort_port_other s p q _ hq, setPort_mem s p _,
    setPort_cvsd s p _, fun hd r addr hr ho ha => ?_⟩
  have hs : dataSelected (t.port p) = true := by
    rw [dataSelected, hp]
    simpa using hd
  have hrt : resolve t.config addr = some r := by rwa [show t.config = s.config from setPort_config s p _]
  refine ⟨_, _, memRead8_offset (offset := dataOffset p) hrt ho ha, ?_, fun k hk => ?_⟩ <;> rw [piaRead_data, if_pos hs]
  · rw [irq, setPort_port]; rfl
  · rw [portData_bit _ hk, hp]

/-! The decoder in exact arithmetic (R250, R251). -/

/-- The history of bits after one more (R250). -/
def shiftIn (bit : Bool) (shift : BitVec 3) : BitVec 3 := (shift <<< 1) ||| (BitVec.ofBool bit).setWidth 3

theorem shiftIn_toNat : ∀ (bit : Bool) (shift : BitVec 3), (shiftIn bit shift).toNat = (2 * shift.toNat + bit.toNat) % 8 := by
  decide

section
variable {c : Config} (hx : c.cvsdFloat = .exact)
include hx

theorem filterNudged_exact (shift : BitVec 3) (filter : Rat) : filterNudged c shift filter =
    if shift.toNat = 7 then filter + (c.cvsdFMax - filter) / 2
    else if shift.toNat = 0 then filter + (c.cvsdFMin - filter) / 2 else filter := by
  simp only [filterNudged, hx, BitVec.toNat_eq]
  rfl

/-- One bit, with no result rounded. -/
theorem cvsdAddBit_exact (bit : Bool) (d : Cvsd) : cvsdAddBit c bit d =
    { shiftRegister := shiftIn bit d.shiftRegister
      filter := filterNudged c (shiftIn bit d.shiftRegister) d.filter * c.cvsdFilterLeak
      state := clampUnit (d.state + filterNudged c (shiftIn bit d.shiftRegister) d.filter) * c.cvsdStateLeak } := by
  unfold cvsdAddBit
  rw [hx]
  rfl

end

/-- Settles O24: the three elements, the history and the nudge read as numbers. -/
theorem cvsdAddBitFormula : Obligations.CvsdAddBitFormula := by
  unfold Obligations.CvsdAddBitFormula
  intro c bit d hx
  simp only [cvsdAddBit_exact hx, filterNudged_exact hx, shiftIn_toNat, clampUnit_eq, and_self]

/-- Settles O25: the filter is moved within its bounds and the state is clamped, and both leaks draw towards 0. -/
theorem cvsdStaysBounded : Obligations.CvsdStaysBounded := by
  unfold Obligations.CvsdStaysBounded
  exact fun c bit d hx hl => cvsdAddBit_within hl hx bit

/-! A stream of ones (R253).

After three ones the history stays at 7. From then on every bit at least halves what the filter lacks to its limit, and once it
is near enough the state gains a fixed amount with every bit until the clamp holds it. -/

theorem shiftIn_true_three : ∀ shift : BitVec 3, shiftIn true (shiftIn true (shiftIn true shift)) = 7 := by decide

/-- The value of the filter that a one leaves as it is. -/
def filterLimit (c : Config) : Rat := c.cvsdFilterLeak * c.cvsdFMax / (2 - c.cvsdFilterLeak)

/-- By how much the moved filter at its limit exceeds what the state leak takes from a state at the clamp. -/
def excess (c : Config) : Rat := c.cvsdFMax / (2 - c.cvsdFilterLeak) - (1 - c.cvsdStateLeak)

/-- Three ones have been fed and the filter lacks at most `gap` to its limit. -/
def FilterNear (c : Config) (gap : Rat) (d : Cvsd) : Prop := d.shiftRegister = 7 ∧ filterLimit c - gap ≤ d.filter

/-- The state is at least `low` and at most what a clamped state leaks to. -/
def StateFrom (c : Config) (low : Rat) (d : Cvsd) : Prop := low ≤ d.state ∧ d.state ≤ c.cvsdStateLeak

/-- A one after three moves the filter to the middle between it and its maximum. -/
theorem cvsdAddBit_true_of_seven {c : Config} (hx : c.cvsdFloat = .exact) {d : Cvsd} (h : d.shiftRegister = 7) :
    cvsdAddBit c true d =
      { shiftRegister := 7
        filter := (d.filter + c.cvsdFMax) / 2 * c.cvsdFilterLeak
        state := clampUnit (d.state + (d.filter + c.cvsdFMax) / 2) * c.cvsdStateLeak } := by
  rw [cvsdAddBit_exact hx, h, show shiftIn true 7 = 7 by decide, filterNudged, if_pos rfl, hx, nudge_exact]

theorem le_clampUnit {q : Rat} (h : q ≤ 1) : q ≤ clampUnit q := by
  rw [clampUnit_eq]
  exact le_min h (le_max_right _ _)

theorem clampUnit_of_one_le {q : Rat} (h : 1 ≤ q) : clampUnit q = 1 := by
  rw [clampUnit_eq, min_eq_left (le_max_of_le_right h)]

section
variable {c : Config} (hl : cvsdLegal c) (hx : c.cvsdFloat = .exact)
include hl

/-- The moved filter at its limit. -/
theorem filterLimit_moved : (filterLimit c + c.cvsdFMax) / 2 = c.cvsdFMax / (2 - c.cvsdFilterLeak) := by
  obtain ⟨-, -, -, hf1, -, -⟩ := hl
  have h2 : 2 - c.cvsdFilterLeak ≠ 0 := by linarith
  unfold filterLimit
  field_simp
  ring

include hx

theorem cvsdAddBit_state_le (bit : Bool) (d : Cvsd) : (cvsdAddBit c bit d).state ≤ c.cvsdStateLeak := by
  obtain ⟨-, -, -, -, hs0, -⟩ := hl
  rw [cvsdAddBit_exact hx]
  exact mul_le_of_le_one_left hs0.le (clampUnit_within _).2

variable {d : Cvsd} {gap : Rat}

theorem filterNear_step (hg : 0 ≤ gap) (h : FilterNear c gap d) : FilterNear c (gap / 2) (cvsdAddBit c true d) := by
  have limit := filterLimit_moved hl
  obtain ⟨-, -, hf0, hf1, -, -⟩ := hl
  obtain ⟨hs, hf⟩ := h
  have fixed : (filterLimit c + c.cvsdFMax) / 2 * c.cvsdFilterLeak = filterLimit c := by
    rw [limit, filterLimit]; ring
  rw [cvsdAddBit_true_of_seven hx hs]
  refine ⟨rfl, ?_⟩
  calc filterLimit c - gap / 2 ≤ filterLimit c - gap / 2 * c.cvsdFilterLeak :=
        sub_le_sub_left (mul_le_of_le_one_right (by linarith) hf1.le) _
    _ = (filterLimit c - gap + c.cvsdFMax) / 2 * c.cvsdFilterLeak := by linear_combination -fixed
    _ ≤ (d.filter + c.cvsdFMax) / 2 * c.cvsdFilterLeak := mul_le_mul_of_nonneg_right (by linarith) hf0

theorem filterNear_iterate (hg : 0 ≤ gap) (h : FilterNear c gap d) (k : Nat) :
    FilterNear c (gap / 2 ^ k) ((cvsdAddBit c true)^[k] d) := by
  induction k with
  | zero => simpa using h
  | succ k ih =>
    rw [Function.iterate_succ_apply', pow_succ, ← div_div]
    exact filterNear_step hl hx (by positivity) ih

/-- With the filter near its limit a one raises the state by a fixed amount, or to the clamp. -/
theorem stateFrom_step {low : Rat} (hf : FilterNear c (excess c) d) (h : StateFrom c low d) :
    StateFrom c (min c.cvsdStateLeak (low + excess c / 2 * c.cvsdStateLeak)) (cvsdAddBit c true d) := by
  refine ⟨?_, cvsdAddBit_state_le hl hx true d⟩
  have limit := filterLimit_moved hl
  obtain ⟨-, -, -, -, hs0, hs1⟩ := hl
  obtain ⟨hshift, hfilter⟩ := hf
  obtain ⟨hlow, hhigh⟩ := h
  have moved : 1 - c.cvsdStateLeak + excess c / 2 ≤ (d.filter + c.cvsdFMax) / 2 := by
    unfold excess at *
    linarith
  rw [cvsdAddBit_true_of_seven hx hshift]
  generalize (d.filter + c.cvsdFMax) / 2 = u at moved
  rcases le_total 1 (d.state + u) with hq | hq
  · refine (min_le_left _ _).trans_eq ?_
    rw [clampUnit_of_one_le hq, one_mul]
  · have leak : 0 ≤ (1 - c.cvsdStateLeak) * (c.cvsdStateLeak - low) := mul_nonneg (by linarith) (by linarith)
    calc min c.cvsdStateLeak (low + excess c / 2 * c.cvsdStateLeak) ≤ low + excess c / 2 * c.cvsdStateLeak := min_le_right _ _
      _ ≤ (low + (1 - c.cvsdStateLeak + excess c / 2)) * c.cvsdStateLeak := by linarith
      _ ≤ clampUnit (d.state + u) * c.cvsdStateLeak :=
        mul_le_mul_of_nonneg_right (by linarith [le_clampUnit hq]) hs0.le

/-- The state climbs by the fixed amount with every one until it is at the clamp. -/
theorem stateFrom_iterate (he : 0 ≤ excess c) (hf : FilterNear c (excess c) d) (h : StateFrom c (-1) d) (k : Nat) :
    FilterNear c (excess c) ((cvsdAddBit c true)^[k] d) ∧
      StateFrom c (min c.cvsdStateLeak (-1 + k * (excess c / 2 * c.cvsdStateLeak))) ((cvsdAddBit c true)^[k] d) := by
  have gain : 0 ≤ excess c / 2 * c.cvsdStateLeak := by
    obtain ⟨-, -, -, -, hs0, -⟩ := hl
    positivity
  induction k with
  | zero =>
    obtain ⟨h1, h2⟩ := h
    exact ⟨hf, (min_le_right _ _).trans (by simpa using h1), h2⟩
  | succ k ih =>
    obtain ⟨ihf, ihs⟩ := ih
    obtain ⟨hlow, hhigh⟩ := stateFrom_step hl hx ihf ihs
    obtain ⟨hshift, hfilter⟩ := filterNear_step hl hx he ihf
    rw [Function.iterate_succ_apply']
    refine ⟨⟨hshift, by linarith⟩, le_trans ?_ hlow, hhigh⟩
    rw [← min_add_add_right]
    refine le_min (min_le_left _ _) (le_min ((min_le_left _ _).trans (le_add_of_nonneg_right gain)) ?_)
    exact (min_le_right _ _).trans_eq (by push_cast; ring)

theorem cvsdAddBit_iterate_within (bit : Bool) (h : cvsdInv c d) (k : Nat) : cvsdInv c ((cvsdAddBit c bit)^[k] d) := by
  induction k with
  | zero => exact h
  | succ k ih =>
    rw [Function.iterate_succ_apply']
    exact cvsdAddBit_within hl hx bit ih

/-- After three ones the filter lacks at most the distance from its minimum to its limit. -/
theorem filterNear_three (h : cvsdInv c d) : FilterNear c (filterLimit c - c.cvsdFMin) ((cvsdAddBit c true)^[3] d) := by
  refine ⟨?_, ?_⟩
  · simp only [Function.iterate_succ, Function.iterate_zero, Function.comp_apply, id_eq, cvsdAddBit_exact hx]
    exact shiftIn_true_three d.shiftRegister
  · obtain ⟨-, -, hlo, -⟩ := cvsdAddBit_iterate_within hl hx true h 3
    rwa [sub_sub_cancel]

theorem stateFrom_iterate_within (h : cvsdInv c d) (k : Nat) : StateFrom c (-1) ((cvsdAddBit c true)^[k + 1] d) := by
  obtain ⟨hlow, -⟩ := cvsdAddBit_iterate_within hl hx true h (k + 1)
  refine ⟨hlow, ?_⟩
  rw [Function.iterate_succ_apply']
  exact cvsdAddBit_state_le hl hx true _

/-- Ones drive the decoder to the clamp: three for the history, then those the filter takes to come near its limit, then those the
state takes to climb from -1 (R253). -/
theorem ones_converge (hlt : 1 - c.cvsdStateLeak < c.cvsdFMax / (2 - c.cvsdFilterLeak)) :
    ∃ n : Nat, ∀ d : Cvsd, cvsdInv c d → ∀ k, n ≤ k → ((cvsdAddBit c true)^[k] d).state = c.cvsdStateLeak := by
  have he : 0 < excess c := sub_pos.2 hlt
  have hg : 0 ≤ filterLimit c - c.cvsdFMin := by
    obtain ⟨hmin, hmax, hf0, hf1, -, -⟩ := hl
    have : 0 ≤ filterLimit c := div_nonneg (mul_nonneg hf0 hmax.le) (by linarith)
    linarith
  have hgain : 0 < excess c / 2 * c.cvsdStateLeak := by
    obtain ⟨-, -, -, -, hs0, -⟩ := hl
    positivity
  obtain ⟨a, ha⟩ : ∃ a : Nat, (filterLimit c - c.cvsdFMin) / 2 ^ a ≤ excess c := by
    obtain ⟨a, ha⟩ := pow_unbounded_of_one_lt ((filterLimit c - c.cvsdFMin) / excess c) one_lt_two
    exact ⟨a, (div_le_comm₀ he (by positivity)).1 ha.le⟩
  obtain ⟨b, hb⟩ := exists_nat_ge ((1 + c.cvsdStateLeak) / (excess c / 2 * c.cvsdStateLeak))
  refine ⟨b + (a + 3), fun d hd k hk => ?_⟩
  obtain ⟨j, rfl⟩ : ∃ j, k = j + (a + 3) := ⟨k - (a + 3), by omega⟩
  have near : FilterNear c (excess c) ((cvsdAddBit c true)^[a + 3] d) := by
    obtain ⟨hs, hf⟩ := filterNear_iterate hl hx hg (filterNear_three hl hx hd) a
    rw [Function.iterate_add_apply]
    exact ⟨hs, by linarith⟩
  obtain ⟨-, hlow, hhigh⟩ := stateFrom_iterate hl hx he.le near (stateFrom_iterate_within hl hx hd (a + 2)) j
  have reached : c.cvsdStateLeak ≤ -1 + j * (excess c / 2 * c.cvsdStateLeak) := by
    have hj : (b : Rat) ≤ j := by exact_mod_cast (by omega : b ≤ j)
    linarith [(div_le_iff₀ hgain).1 (hb.trans hj)]
  rw [Function.iterate_add_apply]
  exact le_antisymm hhigh ((min_eq_left reached).ge.trans hlow)

end

/-! The mirror image: zeros fed to a decoder are ones fed to its negative. -/

/-- The configuration in which the decoder does with the other bit what it does in `c`, with the opposite sign. -/
def mirrorConfig (c : Config) : Config := { c with cvsdFMax := -c.cvsdFMin, cvsdFMin := -c.cvsdFMax }

/-- The decoder with every bit of its history and both signs inverted. -/
def mirrorCvsd (d : Cvsd) : Cvsd where
  shiftRegister := ~~~d.shiftRegister
  filter := -d.filter
  state := -d.state

theorem shiftIn_not : ∀ (bit : Bool) (shift : BitVec 3), shiftIn (!bit) (~~~shift) = ~~~shiftIn bit shift := by decide

theorem clampUnit_neg (q : Rat) : clampUnit (-q) = -clampUnit q := by
  unfold clampUnit
  split_ifs <;> linarith

theorem filterNudged_mirror {c : Config} (hx : c.cvsdFloat = .exact) (shift : BitVec 3) (filter : Rat) :
    filterNudged (mirrorConfig c) (~~~shift) (-filter) = -filterNudged c shift filter := by
  have seven : ~~~shift = 7 ↔ shift = 0 := by bv_omega
  have zero : ~~~shift = 0 ↔ shift = 7 := by bv_omega
  have hm : (mirrorConfig c).cvsdFloat = .exact := hx
  simp only [filterNudged, hx, hm, nudge_exact, seven, zero]
  by_cases h7 : shift = 7
  · have h0 : shift ≠ 0 := by rw [h7]; decide
    rw [if_neg h0, if_pos h7, if_pos h7, mirrorConfig]
    ring
  · rw [if_neg h7, if_neg h7, mirrorConfig]
    split
    · ring
    · rfl

theorem cvsdAddBit_mirror {c : Config} (hx : c.cvsdFloat = .exact) (bit : Bool) (d : Cvsd) :
    cvsdAddBit (mirrorConfig c) (!bit) (mirrorCvsd d) = mirrorCvsd (cvsdAddBit c bit d) := by
  rw [cvsdAddBit_exact (c := mirrorConfig c) hx, cvsdAddBit_exact hx]
  simp only [mirrorCvsd, shiftIn_not, filterNudged_mirror hx, ← neg_add, clampUnit_neg, neg_mul]
  rfl

theorem cvsdLegal_mirror {c : Config} (h : cvsdLegal c) : cvsdLegal (mirrorConfig c) := by
  obtain ⟨hmin, hmax, hrest⟩ := h
  exact ⟨neg_lt_zero.2 hmax, neg_pos.2 hmin, hrest⟩

theorem cvsdInv_mirror {c : Config} {d : Cvsd} (h : cvsdInv c d) : cvsdInv (mirrorConfig c) (mirrorCvsd d) := by
  obtain ⟨hs1, hs2, hf1, hf2⟩ := h
  exact ⟨neg_le_neg hs2, neg_le.2 hs1, neg_le_neg hf2, neg_le_neg hf1⟩

/-- Settles O26: for ones by the climb to the clamp, for zeros by the ones of the mirror image. -/
theorem cvsdConstantStreamConverges : Obligations.CvsdConstantStreamConverges := by
  unfold Obligations.CvsdConstantStreamConverges
  intro c hx hl
  refine ⟨ones_converge hl hx, fun hlt => ?_⟩
  obtain ⟨n, hn⟩ := ones_converge (c := mirrorConfig c) (cvsdLegal_mirror hl) hx hlt
  refine ⟨n, fun d hd k hk => ?_⟩
  have mirrored : mirrorCvsd ((cvsdAddBit c false)^[k] d) = (cvsdAddBit (mirrorConfig c) true)^[k] (mirrorCvsd d) :=
    (Function.Semiconj.iterate_right (fun d => (cvsdAddBit_mirror hx false d).symm) k) d
  have hstate := hn _ (cvsdInv_mirror hd) k hk
  rw [← mirrored] at hstate
  exact neg_eq_iff_eq_neg.1 hstate

end Sys2Proof.Proofs

namespace Sys2Proof.Proofs

open Sys2Proof.Machine Sys2Proof.Safety Sys2Proof.Laws

/-! ## Reset and the interrupt mask (70_reset_and_hazards.md) -/

/-! What clears I (R281). -/

/-- The five instructions R26 lets write I. -/
theorem eq_of_writes_i {i : Instr} (h : (flagsWritten i).i = true) : (i = .cli ∨ i = .tap ∨ i = .rti) ∨ i = .sei ∨ i = .swi := by
  cases i with
  | cli | tap | rti | sei | swi => simp
  | _ => exact nomatch h

/-- Taking an interrupt leaves I set (R225). -/
theorem enter_sets_i {vector : Word} {stack : Bool} {s t : State} {u : Unit} (h : enter vector stack s = .ok u t) :
    t.cc.i = true := by
  rw [enter_frame h]
  rfl

theorem takeInterrupt_sets_i {vector : Word} {s t : State} (h : takeInterrupt vector s = .next t) : t.cc.i = true := by
  rw [takeInterrupt_eq] at h
  obtain ⟨_, u, he, rfl⟩ := thenRegs_eq_next.1 h
  exact (enter_sets_i he : u.cc.i = true)

/-- Of the five that may write I, SEI and SWI set it. -/
theorem exec_clears_i {i : Instr} {s t : State} (h : exec i s = .next t) (hs : s.cc.i = true) (ht : t.cc.i = false) :
    i = .cli ∨ i = .tap ∨ i = .rti := by
  have written : (flagsWritten i).i = true := by
    by_contra hw
    obtain ⟨-, kept, -⟩ := flagFrame i s t h
    simp [kept (Bool.eq_false_of_not_eq_true hw), hs] at ht
  obtain hi | rfl | rfl := eq_of_writes_i written
  · exact hi
  · obtain rfl := Host.Outcome.next.inj h
    exact nomatch ht
  · exact absurd (enter_sets_i (outcome_eq_next.1 h)) (by simp [ht])

/-- What a step that goes on can have done: the arms of R226 in their order. -/
theorem step_cases {s t : State} (h : step s = .next t) :
    (s.nmiPending = true ∧ takeInterrupt nmiVector (s.setNmiPending false) = .next t) ∨
      (irqTaken s = true ∧ takeInterrupt irqVector s = .next t) ∨ (s.waiWait = true ∧ t = s) ∨
      ∃ i s1, fetchInstr s = .ok i s1 ∧ exec i s1 = .next t := by
  cases hf : s.fault with
  | some f => exact nomatch (step_of_fault hf).symm.trans h
  | none =>
    cases hn : s.nmiPending with
    | true => exact .inl ⟨rfl, step_of_nmi hf hn ▸ h⟩
    | false =>
      cases hi : irqTaken s with
      | true => exact .inr (.inl ⟨rfl, step_of_irq hf hn hi ▸ h⟩)
      | false =>
        cases hw : s.waiWait with
        | true => exact .inr (.inr (.inl ⟨rfl, (Host.Outcome.next.inj ((step_of_idle hf hn hi hw).symm.trans h)).symm⟩))
        | false =>
          rw [step_normal hf hn hi hw] at h
          cases hr : fetchInstr s with
          | ok i s1 => exact .inr (.inr (.inr ⟨i, s1, rfl, fetchExecute_of_ok hr ▸ h⟩))
          | fault e => exact nomatch (fetchExecute_of_fault hr).symm.trans h

/-- Settles O13: an interrupt arm of the step sets I, an idle one keeps it, and a fetch keeps it for the instruction. -/
theorem onlyThreeInstructionsUnmask : Obligations.OnlyThreeInstructionsUnmask := by
  unfold Obligations.OnlyThreeInstructionsUnmask
  refine ⟨fun i s t => exec_clears_i, fun s t h hs ht => ?_⟩
  obtain ⟨-, h⟩ | ⟨-, h⟩ | ⟨-, rfl⟩ | ⟨i, s1, hfetch, h⟩ := step_cases h
  · exact absurd (takeInterrupt_sets_i h) (by simp [ht])
  · exact absurd (takeInterrupt_sets_i h) (by simp [ht])
  · exact absurd hs (by simp [ht])
  · have fetched : s1.cc = s.cc := by rw [fetchInstr_frame hfetch]
    exact ⟨i, s1, hfetch, exec_clears_i h (fetched ▸ hs) ht⟩

/-! The reset state of the model (log entries 2 to 4). -/

theorem configLegal_tc : configLegal Config.tc := by decide +kernel

/-- A constructed machine has the invariant, whatever canonical RAM is drawn (R280). -/
theorem construct_invariant {c : Config} (hl : configLegal c) {d : ResetDraw} (hm : memInv c d.ram) : InvariantIn c (construct c d) :=
  loadResetVector_keeps (resetElements_invariant hl d hm 0)

/-- Settles O59: the reset state is a machine constructed in configuration TC with no RAM listed. -/
theorem resetHasInvariant : Obligations.ResetHasInvariant := by
  unfold Obligations.ResetHasInvariant
  rw [← reset_is_construct]
  exact (invariantIn_iff.1 (construct_invariant configLegal_tc ⟨memory_nil_wf, List.forall_mem_nil _⟩)).1

/-- The reset vector of TC is 0xF000: the one byte its ROM lists, and one it does not. -/
theorem wordAt_reset_vector : wordAt State.reset 0xFFFE 0xF000 := ⟨0xF0, 0x00, by decide, by decide, by decide⟩

/-- Settles O12: every value but the vector's is that of the definition. -/
theorem resetStateValues : Obligations.ResetStateValues := by
  unfold Obligations.ResetStateValues
  exact ⟨rfl, rfl, wordAt_reset_vector, rfl, rfl, rfl, rfl, rfl, rfl, rfl, rfl, rfl, rfl, rfl, rfl⟩

/-! The reset vector's two reads (R280). In a machine whose ports have just been reset a read of the window gives 0 and
acknowledges nothing, so the reads change nothing wherever the vector is. -/

/-- `resetByte` sees the configuration and the RAM only. -/
theorem resetByte_congr {s t : State} (hc : t.config = s.config) (hm : t.mem = s.mem) (addr : Word) (v : Byte) :
    resetByte t addr v ↔ resetByte s addr v := by
  unfold resetByte inWindow
  rw [peek_congr hc hm, hc]

/-- Where a region answers, a reset machine has a byte to read. -/
theorem exists_resetByte {s : State} {addr : Word} (h : resolve s.config addr ≠ none) : ∃ v, resetByte s addr v := by
  obtain ⟨r, hr⟩ := Option.ne_none_iff_exists'.1 h
  cases ho : r.owner with
  | ram => exact ⟨s.mem.read addr.toNat, .inl (by simp [peek, hr, ho])⟩
  | rom k => exact ⟨romByte s.config k r addr, .inl (by simp [peek, hr, ho])⟩
  | pia => exact ⟨0, .inr ⟨⟨r, hr, ho⟩, rfl⟩⟩

theorem loadResetVector_of_first_unmapped {s : State} (h : resolve s.config 0xFFFE = none) :
    loadResetVector s = s.setFault (some (.busFault 0xFFFE .readUnmapped)) := by
  have hr : memRead16 resetVector s = .fault (.busFault 0xFFFE .readUnmapped) := by
    rw [memRead16, resetVector, memRead8_unmapped h, bind_fault]
  rw [loadResetVector, hr]

section
variable {s : State} (hp : ∀ p, s.port p = Port.reset) {addr : Word}
include hp

theorem piaRead_of_portsReset (idx : Nat) : piaRead idx s = (0, s) := by
  have unselected : dataSelected Port.reset = false := rfl
  simp only [piaRead, hp, unselected]
  split <;> rfl

theorem memRead8_of_resetByte {v : Byte} (h : resetByte s addr v) : memRead8 addr s = .ok v s := by
  obtain h | ⟨⟨r, hr, ho⟩, rfl⟩ := h
  · exact memRead8_of_peek h
  · rw [memRead8_pia hr ho, piaRead_of_portsReset hp]

theorem memRead8_portsReset_eq {t : State} {v : Byte} (h : memRead8 addr s = .ok v t) : t = s := by
  obtain ⟨-, rfl⟩ | ⟨r, -, -, -, rfl⟩ := memRead8_cases h
  · rfl
  · rw [piaRead_of_portsReset hp]

theorem memRead16_portsReset_eq {t : State} {v : Word} (h : memRead16 addr s = .ok v t) : t = s := by
  obtain ⟨_, s1, h1, h⟩ := bind_eq_ok.1 h
  obtain ⟨_, s2, h2, h⟩ := bind_eq_ok.1 h
  obtain ⟨-, rfl⟩ := Res.ok.inj h
  obtain rfl := memRead8_portsReset_eq hp h1
  exact memRead8_portsReset_eq hp h2

/-- Loading the vector changes PC and the recorded fault only. -/
theorem loadResetVector_frame :
    loadResetVector s = { s with pc := (loadResetVector s).pc, fault := (loadResetVector s).fault } := by
  unfold loadResetVector
  split
  next h => rw [memRead16_portsReset_eq hp h]; rfl
  · rfl

theorem loadResetVector_of_resetBytes {hi lo : Byte} (h0 : resetByte s 0xFFFE hi) (h1 : resetByte s 0xFFFF lo) :
    loadResetVector s = s.setPc (joinBytes hi lo) := by
  have h : memRead16 resetVector s = .ok (joinBytes hi lo) s := by
    rw [memRead16, resetVector, memRead8_of_resetByte hp h0, bind_ok, memRead8_of_resetByte hp (addr := 0xFFFE + 1) h1, bind_ok]
  rw [loadResetVector, h]

theorem loadResetVector_of_second_unmapped (h0 : resolve s.config 0xFFFE ≠ none) (h1 : resolve s.config 0xFFFF = none) :
    loadResetVector s = s.setFault (some (.busFault 0xFFFF .readUnmapped)) := by
  have hr : memRead16 resetVector s = .fault (.busFault 0xFFFF .readUnmapped) := by
    obtain ⟨v, hv⟩ := exists_resetByte h0
    exact memRead16_second_unmapped (memRead8_of_resetByte hp hv) h1
  rw [loadResetVector, hr]

/-- Each case of the two reads, read in the machine they leave, which has the same map and RAM. -/
theorem vectorLoaded_loadResetVector (hf : s.fault = none) : vectorLoaded (loadResetVector s) := by
  have hc : (loadResetVector s).config = s.config := by rw [loadResetVector_frame hp]
  have hm : (loadResetVector s).mem = s.mem := by rw [loadResetVector_frame hp]
  unfold vectorLoaded
  simp only [resetByte_congr hc hm, hc]
  refine ⟨fun hi lo h0 h1 => ?word, fun h => ?first, fun h0 h1 => ?second⟩
  case word =>
    rw [loadResetVector_of_resetBytes hp h0 h1]
    exact ⟨hf, rfl⟩
  case first =>
    rw [loadResetVector_of_first_unmapped h]
    rfl
  case second =>
    rw [loadResetVector_of_second_unmapped hp h0 h1]
    rfl

end

theorem port_resetElements (c : Config) (d : ResetDraw) (ram : Memory) (draws : Nat) (p : PortId) :
    (resetElements c d ram draws).port p = Port.reset := by
  cases p <;> rfl

/-- R280 whole: the elements at their reset values, then the vector. -/
theorem loadResetVector_resetElements (c : Config) (d : ResetDraw) (ram : Memory) (draws : Nat) :
    elementsReset c d ram (loadResetVector (resetElements c d ram draws)) ∧
      vectorLoaded (loadResetVector (resetElements c d ram draws)) := by
  have hp := port_resetElements c d ram draws
  refine ⟨?_, vectorLoaded_loadResetVector hp rfl⟩
  rw [loadResetVector_frame hp]
  exact ⟨rfl, rfl, rfl, rfl, rfl, rfl, rfl, rfl, rfl, hp, rfl⟩

/-- Settles O11: construction and reset are R280 on the RAM drawn and on the RAM kept. -/
theorem resetElements : Obligations.ResetElements := by
  unfold Obligations.ResetElements
  exact ⟨fun c d => loadResetVector_resetElements c d d.ram 0, fun s d => loadResetVector_resetElements s.config d _ s.draws⟩

end Sys2Proof.Proofs
